-- ==== Sys2Proof/Word.lean ====
section
/-! DEFINITION. The word types of the Tuplet 3208 and their plainest arithmetic (00_scope.md, Conventions). -/

namespace Sys2Proof

/-- A word of 32 bits: what exchange memory, the FIFOs and a serial frame hold. -/
abbrev Word := BitVec 32

/-- A halfword of 16 bits: what one host access transfers. -/
abbrev Half := BitVec 16

/-- A logical word address of 15 bits: logical page in bits 14:8, offset in bits 7:0. -/
abbrev LAddr := BitVec 15

/-- A byte offset of the 2 KiB host window. -/
abbrev WindowOffset := BitVec 11

/-- A lane number, 0 to 11. -/
abbrev LaneId := Fin 12

/-- A stream port number, 0 to 3. -/
abbrev PortId := Fin 4

/-- A signal number, 0 to 15. -/
abbrev SignalId := Fin 16

/-- The low halfword of a word. -/
def Word.low (w : Word) : Half := w.setWidth 16

/-- The high halfword of a word. -/
def Word.high (w : Word) : Half := w.extractLsb' 16 16

/-- A word from its high and low halfwords. -/
def Word.ofHalves (high low : Half) : Word := high ++ low

/-- The logical page of a logical address. -/
def LAddr.page (a : LAddr) : BitVec 7 := a.extractLsb' 8 7

/-- The offset of a logical address within its page. -/
def LAddr.offset (a : LAddr) : BitVec 8 := a.extractLsb' 0 8

/-- The counting of a saturating 16-bit counter: up to 65,535, where it stays. -/
def satInc (c : Half) : Half := if c = 0xFFFF then c else c + 1

end Sys2Proof
end

