-- ==== Sys2Proof/Config.lean ====
section
/-! DEFINITION. What the part fixes: its identification (R173), the size of exchange memory (R162, R170) and what an
address of exchange memory that the model's memory does not list reads as (the zero of the clear pass, R170; log 8).
The spec leaves no value open that the model would need a free value for, so there is none here. -/

namespace Sys2Proof.Config

/-- VENDOR_CODE (R173). -/
def vendorCode : Half := 0xAB3A

/-- PART_CODE (R173). -/
def partCode : Half := 0x3208

/-- REVISION (R173). -/
def revision : Half := 0x0001

/-- The number of words of exchange memory: 64 physical pages of 256 words. -/
def memoryWords : Nat := 16384

/-- What a word of exchange memory that is not listed reads as: the clear pass writes zero to every word (R170). -/
def unlistedWord : Word := 0

/-- The capacity of a port FIFO in words (R148). -/
def fifoWords : Nat := 32

/-- The capacity of the completion queue in entries (R131). -/
def queueEntries : Nat := 32

/-- The last logical address, 0x7FFF (R86). -/
def lastAddress : LAddr := 0x7FFF

/-- The last address a record can lie at, 0x7FFC (R16). -/
def lastRecord : LAddr := 0x7FFC

end Sys2Proof.Config
end

