-- ==== Sys2Proof/Syntax.lean ====
section
/-! DEFINITION. The commands of the Tuplet 3208: one constructor of `Instr` for each row of spec/opcode_table.json, and the
types of their operands. The table gives no operands and no bits; the operands here are what the row's rule needs from outside
the part (the value the host writes, the bit a partner puts on SDI), named in NOTES.md. -/

namespace Sys2Proof

/-- A schedule table (R47). -/
inductive Table
  | a
  | b
deriving DecidableEq, Repr

/-- The two directions of a stream port. -/
inductive Direction
  | rx
  | tx
deriving DecidableEq, Repr

/-- The three error counters of a port (R157). -/
inductive PortCounter
  | overruns
  | underruns
  | frameErrors
deriving DecidableEq, Repr

/-- The 32-bit items of the window (R161). -/
inductive Item32
  | slotCount
  | beats
  | idleWord (port : PortId)
  | mapEntry (page : BitVec 7)
  | aperture (word : BitVec 8)
deriving DecidableEq, Repr

/-- Which half of a 32-bit item an offset names. -/
inductive HalfOf
  | low
  | high
deriving DecidableEq, Repr

/-- What a byte offset of the window names (11.1, 11.4, 11.5, 11.6). -/
inductive Item
  | vendorCode
  | partCode
  | revision
  | globalStatus
  | globalCommand
  | commandResult
  | aperturePage
  | intStatus
  | intEnable
  | refusalCause
  | refusalOffset
  | refusalCount
  | signals
  | signalSet
  | signalClear
  | wheelPosition
  | tableSelect
  | slotPeriod
  | wheelRotation
  | overrunCount
  | laneCommand
  | laneArgument
  | laneResult
  | laneSelect
  | laneFaultSummary
  | laneHaltSummary
  | laneState
  | laneParts
  | recordPointer
  | laneConfig
  | laneProgress
  | resolvedSource
  | resolvedDestination
  | remaining
  | sourcePosition
  | destinationPosition
  | repeatAddress
  | repeatRemaining
  | waitMask
  | waitTimeout
  | partTag
  | faultInfo
  | faultRecordAddress
  | faultOffending
  | missedSlots
  | cursorPagesA
  | cursorPagesB
  | recordWords
  | queueHeadId
  | queueHeadTag
  | queueHeadAddress
  | queueHeadStamp
  | queueLevel
  | queueNextSequence
  | queueThreshold
  | queuePop
  | portConfig (port : PortId)
  | portMarks (port : PortId)
  | portStatus (port : PortId)
  | portCounter (port : PortId) (counter : PortCounter)
  | scheduleEntry (table : Table) (entry : Fin 32)
  | split (item : Item32) (half : HalfOf)
  | unused
deriving DecidableEq, Repr

/-- A host access of one halfword: a read, or a write of a value (R161). -/
inductive Access
  | read
  | write (value : Half)
deriving DecidableEq, Repr

/-- How much of a word step one WORD_STEP command carries out: the tests and the read of R82 and R83, the write and the counts
of R83, or both. Events that come between the read and the write of one word (R83, R93) come between two commands. -/
inductive WordStepPart
  | whole
  | read
  | write
deriving DecidableEq, Repr

/-- The commands: operations of the host, events on the pins and events of the part's own engines. -/
inductive Instr
  /-- ENABLE (R27): a LANE_COMMAND write; `lane` is the lane field, 12 to 15 included. -/
  | enable (lane : BitVec 4)
  /-- DISABLE (R28). -/
  | disable (lane : BitVec 4)
  /-- START (R29). -/
  | start (lane : BitVec 4)
  /-- HALT (R30). -/
  | halt (lane : BitVec 4)
  /-- RESUME (R31). -/
  | resume (lane : BitVec 4)
  /-- ABORT (R32). -/
  | abort (lane : BitVec 4)
  /-- LANE_COMMAND_UNKNOWN (R26): a LANE_COMMAND write with a code that names no command. -/
  | laneCommandUnknown (lane : BitVec 4) (code : BitVec 3)
  /-- WHEEL_START (R62). -/
  | wheelStart
  /-- WHEEL_STOP (R63). -/
  | wheelStop
  /-- WHEEL_REWIND (R64). -/
  | wheelRewind
  /-- SOFT_RESET (R172). -/
  | softReset
  /-- ERASE (R169). -/
  | erase
  /-- GLOBAL_COMMAND_UNKNOWN (R168): a GLOBAL_COMMAND write with a code that names no command. -/
  | globalCommandUnknown (code : BitVec 4)
  /-- CLEAR_PASS_END (R170). -/
  | clearPassEnd
  /-- RESET_ASSERT (R171). -/
  | resetAssert
  /-- RESET_RELEASE (R171). -/
  | resetRelease
  /-- RECORD_POINTER_WRITE (R39). -/
  | recordPointerWrite (value : Half)
  /-- LANE_CONFIG_WRITE (R40). -/
  | laneConfigWrite (value : Half)
  /-- LANE_SELECT_WRITE (R44). -/
  | laneSelectWrite (value : Half)
  /-- RECORD_WORDS_READ (R177). -/
  | recordWordsRead
  /-- SCHEDULE_ENTRY_WRITE (R48). -/
  | scheduleEntryWrite (table : Table) (entry : Fin 32) (value : Half)
  /-- SLOT_PERIOD_WRITE (R51). -/
  | slotPeriodWrite (value : Half)
  /-- TABLE_SELECT_WRITE (R61). -/
  | tableSelectWrite (value : Half)
  /-- SPLIT_LOW_READ (R163). -/
  | splitLowRead (item : Item32)
  /-- SPLIT_HIGH_READ (R163). -/
  | splitHighRead (item : Item32)
  /-- SPLIT_LOW_WRITE (R164). -/
  | splitLowWrite (item : Item32) (value : Half)
  /-- MAP_ENTRY_COMMIT (R103): a write of the high half of a map entry. -/
  | mapEntryCommit (page : BitVec 7) (value : Half)
  /-- APERTURE_WORD_COMMIT (R165): a write of the high half of an aperture word. -/
  | apertureWordCommit (word : BitVec 8) (value : Half)
  /-- PORT_IDLE_WORD_COMMIT (R149): a write of the high half of a port's idle word. -/
  | portIdleWordCommit (port : PortId) (value : Half)
  /-- APERTURE_PAGE_WRITE (R162). -/
  | aperturePageWrite (value : Half)
  /-- SIGNAL_SET (R121). -/
  | signalSet (value : Half)
  /-- SIGNAL_CLEAR (R122). -/
  | signalClear (value : Half)
  /-- QUEUE_POP (R136). -/
  | queuePop (value : Half)
  /-- QUEUE_THRESHOLD_WRITE (R138). -/
  | queueThresholdWrite (value : Half)
  /-- INT_STATUS_WRITE (R141). -/
  | intStatusWrite (value : Half)
  /-- INT_ENABLE_WRITE (R142). -/
  | intEnableWrite (value : Half)
  /-- PORT_RX_ENABLE (R151): a PORT_CONFIG write of `value` with RX_ENABLE set. -/
  | portRxEnable (port : PortId) (value : Half)
  /-- PORT_TX_ENABLE (R151): a PORT_CONFIG write of `value` with TX_ENABLE set. -/
  | portTxEnable (port : PortId) (value : Half)
  /-- PORT_RX_DISABLE (R152): a PORT_CONFIG write of `value` with RX_ENABLE clear. -/
  | portRxDisable (port : PortId) (value : Half)
  /-- PORT_TX_DISABLE (R152): a PORT_CONFIG write of `value` with TX_ENABLE clear. -/
  | portTxDisable (port : PortId) (value : Half)
  /-- PORT_STATUS_WRITE (R157). -/
  | portStatusWrite (port : PortId) (value : Half)
  /-- PORT_COUNTER_WRITE (R157). -/
  | portCounterWrite (port : PortId) (counter : PortCounter) (value : Half)
  /-- REGISTER_WRITE (R174): a write of any item, by its offset. -/
  | registerWrite (offset : WindowOffset) (value : Half)
  /-- UNUSED_OFFSET_ACCESS (R176). -/
  | unusedOffsetAccess (offset : WindowOffset) (access : Access)
  /-- SLOT_TICK (R57): an expiry of the slot timer. -/
  | slotTick
  /-- WAIT_TIMEOUT (R127): the expiry of the slot timer that brings the timeout left of `lane` to 0. -/
  | waitTimeout (lane : LaneId)
  /-- RECORD_LOAD (R73): the beat reads its next `words` + 1 words, at most to the fourth. -/
  | recordLoad (words : Fin 4)
  /-- CELL_READ (R95). -/
  | cellRead
  /-- WORD_STEP (R82, R83). -/
  | wordStep (part : WordStepPart)
  /-- BEAT_END (R72). -/
  | beatEnd
  /-- LOOKUP_START (R108). -/
  | lookupStart
  /-- LOOKUP_COMPLETION (R109). -/
  | lookupCompletion
  /-- FRAME_START (R145): an FS strobe at the port. -/
  | frameStart (port : PortId)
  /-- FRAME_END (R146): the 32nd SCK period of a frame, with the bit on SDI. -/
  | frameEnd (port : PortId) (sdi : Bool)
  /-- SCK_PERIOD (R144): an SCK period, with the bit on SDI. -/
  | sckPeriod (port : PortId) (sdi : Bool)
deriving DecidableEq, Repr

end Sys2Proof
end

