-- ==== Sys2Proof/Decode.lean ====
section
/-! DEFINITION. Words that spell commands. The opcode table gives no row any bits: a command is a host access, a pin event or an
event of an engine, and no word spells one (log 19). The formats that the host and the record writers see are decoded in
Machine/Operands.lean. -/

namespace Sys2Proof

/-- The command a word of the opcode table spells: none, since no row of the table gives bits. -/
def decodeTableWord (_nbits _w : Nat) : Option Instr := none

end Sys2Proof
end

