-- ==== Sys2Proof/Machine/State.lean ====
section
/-! DEFINITION. The state of the Tuplet 3208 as plain data, every piece of it that the spec names (INVENTORY.md, ## State),
the reasons a step can stop, and the state after a device reset. -/

namespace Sys2Proof.Machine

/-- Why a step of the part stops. Nothing in the spec stops the part: every command leaves a next state, and no meaning
answers with this. -/
inductive Fault
  /-- Raised by nothing: the part has no stuck state. Safe, since it never arises. -/
  | stuck
deriving DecidableEq, Repr

/-- Why a command is refused a meaning. -/
inductive Refusal
  /-- Raised by an arm of `exec` whose command has no meaning yet; none is left. Safe: the model stops. -/
  | notModelled (mnemonic : String)
deriving DecidableEq, Repr

/-- The seven lane states (R21). -/
inductive LaneState
  | off
  | idle
  | active
  | blocked
  | waiting
  | halted
  | faulted
deriving DecidableEq, Repr

/-- The phase: the kind of work the lane's next beat performs (R22). -/
inductive Phase
  | load
  | dispatch
  | resolve
  | transfer
  | finish
deriving DecidableEq, Repr

/-- A set drawn from the block reasons MAP, PORT and QUEUE (R23). -/
structure Reasons where
  map : Bool
  port : Bool
  queue : Bool
deriving DecidableEq, Repr

/-- The empty set of block reasons. -/
def Reasons.empty : Reasons := ⟨false, false, false⟩

/-- A port wait: the FIFO a lane waits on (R23). -/
structure PortWait where
  port : PortId
  dir : Direction
deriving DecidableEq, Repr

/-- A cursor role (R104). -/
inductive Role
  | walk
  | hop
  | src
  | dst
deriving DecidableEq, Repr

/-- The reference a lane is resolving (R94). -/
inductive ResolveTarget
  | src
  | dst
  | link
deriving DecidableEq, Repr

/-- The copy of a record: its four words (R1). -/
structure RecordCopy where
  word0 : Word
  word1 : Word
  word2 : Word
  word3 : Word
deriving DecidableEq, Repr

/-- A lane's repeat record (R8). -/
structure RepeatRecord where
  address : LAddr
  remaining : Nat
deriving DecidableEq, Repr

/-- The kinds of completion entry (R131). -/
inductive EntryKind
  | post
  | moveDone
  | stop
  | timeout
deriving DecidableEq, Repr

/-- A completion entry that a lane holds because the queue was full (R133). -/
structure PendingPost where
  kind : EntryKind
  tag : Half
deriving DecidableEq, Repr

/-- What a WAITING lane waits for (R11). -/
structure Wait where
  mask : Half
  consume : Bool
  timeoutLeft : Nat
  postOnTimeout : Bool
  tag : Half
deriving DecidableEq, Repr

/-- Why a lane is HALTED. -/
inductive HaltReason
  | host
  | step
  | breakFlag
deriving DecidableEq, Repr

/-- The state a HALTED lane resumes in; with BLOCKED, the held reasons (R30, R38). -/
inductive Resume
  | active
  | blocked (held : Reasons)
  | waiting
deriving DecidableEq, Repr

/-- The eleven fault causes (R41). -/
inductive FaultCause
  | badKind
  | badField
  | misaligned
  | range
  | unmapped
  | denied
  | noRight
  | targetKind
  | chainDepth
  | nestedRepeat
  | portOff
deriving DecidableEq, Repr

/-- A fault record (R41). -/
structure FaultRecord where
  cause : FaultCause
  recordAddress : LAddr
  offending : LAddr
  role : Role
  hopCount : Nat
deriving DecidableEq, Repr

/-- The deferred request (R33); a FAULT is held with its cause and the cursor role it concerns (log 10). -/
inductive Deferred
  | halt
  | abort
  | fault (cause : FaultCause) (role : Role)
deriving DecidableEq, Repr

/-- The target a lookup found (R104). -/
inductive Translation
  | memory (page : BitVec 6) (read write : Bool)
  | port (port : PortId) (dir : Direction)
deriving DecidableEq, Repr

/-- A cursor's status; the translation is present exactly while it is MAPPED (R104). -/
inductive CursorStatus
  | unset
  | pending
  | inFlight
  | mapped (target : Translation)
deriving DecidableEq, Repr

/-- A cursor (R104). -/
structure Cursor where
  page : BitVec 7
  status : CursorStatus
deriving DecidableEq, Repr

/-- An UNSET cursor, whose logical page is 0 (R104). -/
def Cursor.unset : Cursor := ⟨0, .unset⟩

/-- The record pointer, the record copy and the move-progress fields of R20: what a beat works on (R69, progress). -/
structure Progress where
  pointer : LAddr
  current : Option RecordCopy
  resolveTarget : ResolveTarget
  hopCount : Nat
  resolvedSource : LAddr
  resolvedDestination : LAddr
  remaining : Nat
  sourcePosition : LAddr
  destinationPosition : LAddr
deriving DecidableEq, Repr

/-- The cleared values of R20 at a record pointer, with no record held. -/
def Progress.cleared (pointer : LAddr) : Progress :=
  ⟨pointer, none, .src, 0, 0, 0, 0, 0, 0⟩

/-- A lane's configuration; BURST is held as the burst size minus one (R40). -/
structure LaneConfig where
  burstField : BitVec 4
  step : Bool
  spare : Bool
deriving DecidableEq, Repr

/-- The configuration after DISABLE and both resets: burst 4, STEP clear, SPARE clear (R28, R46). -/
def LaneConfig.default : LaneConfig := ⟨3, false, false⟩

/-- A lane context (R20) with the lane's four cursors (R104). -/
structure Lane where
  state : LaneState
  reasons : Reasons
  portWait : Option PortWait
  phase : Phase
  progress : Progress
  repeatRecord : Option RepeatRecord
  pendingPost : Option PendingPost
  wait : Option Wait
  haltReason : Option HaltReason
  resume : Option Resume
  deferred : Option Deferred
  credit : Nat
  missed : Half
  beats : BitVec 32
  config : LaneConfig
  fault : Option FaultRecord
  walk : Cursor
  hop : Cursor
  src : Cursor
  dst : Cursor
deriving DecidableEq, Repr

/-- The lane context after either reset (R46). -/
def Lane.reset : Lane :=
  { state := .off, reasons := .empty, portWait := none, phase := .load, progress := .cleared 0
    repeatRecord := none, pendingPost := none, wait := none, haltReason := none, resume := none
    deferred := none, credit := 0, missed := 0, beats := 0, config := .default, fault := none
    walk := .unset, hop := .unset, src := .unset, dst := .unset }

/-- A translation as a beat took it at its start, with the logical page the cursor was MAPPED on (R69). -/
structure BeatCursor where
  page : BitVec 7
  target : Translation
deriving DecidableEq, Repr

/-- The outcome of the test that ended a TRANSFER beat's word steps (R82, R86). -/
inductive Stop
  | finish
  | burst
  | crossing
  | portOff (role : Role)
  | portEmpty (port : PortId)
  | portFull (port : PortId)
  | range (role : Role)
deriving DecidableEq, Repr

/-- A word a word step has read and not yet written; `discard` is set when a disable of the destination's transmit direction
has been taken since the step's tests (R83). -/
structure HeldWord where
  word : Word
  discard : Bool
deriving DecidableEq, Repr

/-- The work of a beat, by the phase it began in (R69). -/
inductive BeatWork
  | load (walk : BeatCursor) (words : List Word)
  | dispatch
  | resolve (hop : BeatCursor) (cell : Option Word)
  | transfer (src dst : BeatCursor) (moved : Nat) (held : Option HeldWord) (stop : Option Stop)
  | finish
deriving DecidableEq, Repr

/-- The beat in progress (R69). -/
structure Beat where
  lane : LaneId
  step : Bool
  burst : Nat
  progress : Progress
  work : BeatWork
deriving DecidableEq, Repr

/-- A schedule entry (R47). The lane field of a vacant entry is kept as written, so it has four bits. -/
structure ScheduleEntry where
  endFlag : Bool
  vacant : Bool
  lane : BitVec 4
deriving DecidableEq, Repr

/-- The slot timer while it counts: the length it took at the slot's beginning and the timebase ticks counted (R51). -/
structure SlotTimer where
  length : Nat
  elapsed : Nat
deriving DecidableEq, Repr

/-- The slot wheel (R47, R50). -/
structure Wheel where
  running : Bool
  tableA : Vector ScheduleEntry 32
  tableB : Vector ScheduleEntry 32
  active : Table
  select : Table
  position : Fin 32
  rotation : LaneId
  period : Half
  timer : Option SlotTimer
  slotCount : BitVec 32
  overruns : Half
deriving DecidableEq, Repr

/-- The wheel after device reset (R67). -/
def Wheel.reset : Wheel :=
  { running := false, tableA := Vector.replicate 32 ⟨false, true, 0⟩
    tableB := Vector.replicate 32 ⟨false, true, 0⟩, active := .a, select := .a, position := 0
    rotation := 11, period := 256, timer := none, slotCount := 0, overruns := 0 }

/-- The target kind of a page map entry (R102). -/
inductive TargetKind
  | memory
  | portRx
  | portTx
deriving DecidableEq, Repr

/-- A page map entry (R102). -/
structure MapEntry where
  valid : Bool
  kind : TargetKind
  read : Bool
  write : Bool
  port : PortId
  page : BitVec 6
  mask : BitVec 12
deriving DecidableEq, Repr

/-- A page map entry after device reset (R118). -/
def MapEntry.reset : MapEntry := ⟨false, .memory, false, false, 0, 0, 0⟩

/-- The disposition of the lookup in progress (R107). -/
inductive Disposition
  | live
  | stale
  | abandoned
deriving DecidableEq, Repr

/-- The record of the lookup in progress (R107). -/
structure Lookup where
  lane : LaneId
  role : Role
  page : BitVec 7
  disposition : Disposition
deriving DecidableEq, Repr

/-- The map unit: the page map, the lookup request queue, oldest first, and the lookup in progress (R102, R107). -/
structure MapUnit where
  entries : Vector MapEntry 128
  queue : List (LaneId × Role)
  lookup : Option Lookup
deriving DecidableEq, Repr

/-- A completion entry (R131). -/
structure Entry where
  sequence : BitVec 8
  lane : LaneId
  kind : EntryKind
  tag : Half
  recordAddress : LAddr
  stamp : Half
deriving DecidableEq, Repr

/-- The completion queue, oldest first; the threshold is held as the threshold minus one (R131, R138). -/
structure CompletionQueue where
  entries : List Entry
  nextSequence : BitVec 8
  thresholdField : BitVec 5
deriving DecidableEq, Repr

/-- The completion queue after either reset (R139). -/
def CompletionQueue.reset : CompletionQueue := ⟨[], 0, 0⟩

/-- INT_STATUS and INT_ENABLE (R140). -/
structure Interrupts where
  status : BitVec 8
  enable : BitVec 8
deriving DecidableEq, Repr

/-- A stream port (R144, R148, R149, R157). RX_MARK is held as the mark minus one. `received` holds the bits SDI has filled
in the frame in progress. -/
structure Port where
  rxEnable : Bool
  txEnable : Bool
  rxSignalEnable : Bool
  txSignalEnable : Bool
  rxSignal : BitVec 4
  txSignal : BitVec 4
  rxMarkField : BitVec 5
  txMark : BitVec 5
  idleWord : Word
  rxFifo : List Word
  txFifo : List Word
  overruns : Half
  underruns : Half
  frameErrors : Half
  overrunFlag : Bool
  underrunFlag : Bool
  frameErrorFlag : Bool
  inFrame : Bool
  bits : Nat
  shiftWord : Word
  received : Word
  capture : Bool
deriving DecidableEq, Repr

/-- A port after device reset (R159). The received word has no value in the spec: 0 (log 22). -/
def Port.reset : Port :=
  { rxEnable := false, txEnable := false, rxSignalEnable := false, txSignalEnable := false
    rxSignal := 0, txSignal := 0, rxMarkField := 15, txMark := 16, idleWord := 0, rxFifo := []
    txFifo := [], overruns := 0, underruns := 0, frameErrors := 0, overrunFlag := false
    underrunFlag := false, frameErrorFlag := false, inFrame := false, bits := 0, shiftWord := 0
    received := 0, capture := false }

/-- The tag of a split latch: the 32-bit item it names (R163). -/
inductive LatchTag
  | slotCount
  | beats (lane : LaneId)
  | idleWord (port : PortId)
  | mapEntry (page : BitVec 7)
  | physical (page : BitVec 6) (offset : BitVec 8)
deriving DecidableEq, Repr

/-- A loaded split latch (R163, R164). -/
structure Latch where
  value : Half
  tag : LatchTag
deriving DecidableEq, Repr

/-- The causes of a bus refusal (R166). -/
inductive BusCause
  | readOnly
  | activeTable
  | badLane
  | badTarget
  | periodLow
  | clearing
  | splitOrder
  | queueEmpty
deriving DecidableEq, Repr

/-- The refusal capture; empty means cause NONE, offset 0 and count 0 (R167). -/
structure Capture where
  cause : Option BusCause
  offset : WindowOffset
  count : BitVec 8
deriving DecidableEq, Repr

/-- The empty refusal capture (R167). -/
def Capture.empty : Capture := ⟨none, 0, 0⟩

/-- LANE_RESULT (R26). -/
inductive LaneResult
  | none
  | accepted
  | refusedState
  | refusedArgument
  | refusedClearing
deriving DecidableEq, Repr

/-- COMMAND_RESULT (R168). -/
inductive CommandResult
  | none
  | accepted
  | refusedState
  | refusedClearing
  | refusedArgument
deriving DecidableEq, Repr

/-- What the bus window holds of its own (R161 to R168, R44, R177). `readData` is what the last host read returned (log 9). -/
structure Window where
  aperturePage : BitVec 6
  readLatch : Option Latch
  writeLatch : Option Latch
  capture : Capture
  commandResult : CommandResult
  laneSelect : LaneId
  laneArgument : Half
  laneResult : LaneResult
  recordIndex : BitVec 3
  readData : Half
deriving DecidableEq, Repr

/-- The bus window after device reset (R46, R171, R177). -/
def Window.reset : Window :=
  { aperturePage := 0, readLatch := none, writeLatch := none, capture := .empty
    commandResult := .none, laneSelect := 0, laneArgument := 0, laneResult := .none
    recordIndex := 0, readData := 0 }

/-- One listed word of exchange memory: its physical address (page times 256 plus offset) and its content. -/
abbrev MemCell := Nat × Word

/-- The state of the part. `mem` is exchange memory in its canonical form (Machine/Memory.lean), `clearing` says that a clear
pass is in progress (R170), `resetPin` that RESET is asserted (R171), and `pending` is the queue of the commands that wait. -/
structure State where
  lanes : Vector Lane 12
  beat : Option Beat
  wheel : Wheel
  map : MapUnit
  signals : Half
  queue : CompletionQueue
  ints : Interrupts
  ports : Vector Port 4
  mem : List MemCell
  window : Window
  clearing : Bool
  resetPin : Bool
  pending : List Instr
deriving DecidableEq, Repr

/-- The part just after a device reset: every piece of state at its device-reset value, RESET released, and the clear pass
that the release begins in progress (R171, 11.7; log 7). -/
def State.reset : State :=
  { lanes := Vector.replicate 12 .reset, beat := none, wheel := .reset
    map := ⟨Vector.replicate 128 .reset, [], none⟩, signals := 0, queue := .reset, ints := ⟨0, 0⟩
    ports := Vector.replicate 4 .reset, mem := [], window := .reset, clearing := true
    resetPin := false, pending := [] }

end Sys2Proof.Machine
end

