-- ==== Sys2Proof/Machine/Memory.lean ====
section
/-! DEFINITION. Exchange memory (R162, R170): a list of (physical address, word) pairs in one canonical form, addresses
strictly rising and no entry equal to what an unlisted word reads as (log 8). Every access is one whole word (R165, R70). -/

namespace Sys2Proof.Machine

/-- The canonical form: addresses strictly rising, each of a word that exists, and no listed word that an unlisted one would
read as. -/
abbrev Memory.wf (m : List MemCell) : Prop :=
  m.Pairwise (fun c d => c.1 < d.1) ∧ ∀ c ∈ m, c.1 < Config.memoryWords ∧ c.2 ≠ Config.unlistedWord

/-- The physical address of an offset of a physical page (00_scope.md, Addresses). -/
def physAddr (page : BitVec 6) (offset : BitVec 8) : Nat := page.toNat * 256 + offset.toNat

/-- A read of one word. -/
def readWord : List MemCell → Nat → Word
  | [], _ => Config.unlistedWord
  | (b, w) :: rest, a => if b = a then w else readWord rest a

/-- A write of one word, keeping the canonical form. -/
def writeWord : List MemCell → Nat → Word → List MemCell
  | [], a, v => if v = Config.unlistedWord then [] else [(a, v)]
  | (b, w) :: rest, a, v =>
    if a < b then
      if v = Config.unlistedWord then (b, w) :: rest else (a, v) :: (b, w) :: rest
    else if a = b then
      if v = Config.unlistedWord then rest else (a, v) :: rest
    else (b, w) :: writeWord rest a v

/-- A read of exchange memory by physical page and offset. -/
def State.readMem (s : State) (page : BitVec 6) (offset : BitVec 8) : Word :=
  readWord s.mem (physAddr page offset)

/-- A write of exchange memory by physical page and offset. -/
def State.writeMem (s : State) (page : BitVec 6) (offset : BitVec 8) (v : Word) : State :=
  { s with mem := writeWord s.mem (physAddr page offset) v }

end Sys2Proof.Machine
end

