-- ==== Sys2Proof/Machine/Operands.lean ====
section
/-! DEFINITION. The formats of chapter 11: the reference word, the record header and its validation (R2 to R4, 11.2), the page
map entry and the schedule entry (11.3), the codes of the lane view (11.4 to 11.7), and the window's address map (11.1). -/

namespace Sys2Proof.Machine

/-! ### Reference words (R2) -/

/-- INDIRECT of a reference word. -/
def refIndirect (w : Word) : Bool := w.getLsbD 31

/-- Whether a reserved bit of a reference word, bits 30:15, is set. -/
def refReservedSet (w : Word) : Bool := w.extractLsb' 15 16 != 0

/-- The logical address of a reference word. -/
def refAddress (w : Word) : LAddr := w.extractLsb' 0 15

/-- Whether a logical address is a multiple of 4. -/
def isAligned4 (a : LAddr) : Bool := a.extractLsb' 0 2 == 0

/-! ### Records (R3, R4) -/

/-- The six record kinds (R3). -/
inductive RecordKind
  | move
  | link
  | post
  | wait
  | raise
  | stop
deriving DecidableEq, Repr

/-- The kind a header names; codes 0 and 7 name none (R3). -/
def RecordCopy.kind (r : RecordCopy) : Option RecordKind :=
  match (r.word0.extractLsb' 29 3).toNat with
  | 1 => some .move
  | 2 => some .link
  | 3 => some .post
  | 4 => some .wait
  | 5 => some .raise
  | 6 => some .stop
  | _ => none

/-- BREAK, for every kind. -/
def RecordCopy.breakFlag (r : RecordCopy) : Bool := r.word0.getLsbD 28

/-- SRC_FIXED of a MOVE. -/
def RecordCopy.srcFixed (r : RecordCopy) : Bool := r.word0.getLsbD 27

/-- DST_FIXED of a MOVE. -/
def RecordCopy.dstFixed (r : RecordCopy) : Bool := r.word0.getLsbD 26

/-- POST_AFTER of a MOVE or a STOP. -/
def RecordCopy.postAfter (r : RecordCopy) : Bool := r.word0.getLsbD 25

/-- SIGNAL_AFTER of a MOVE. -/
def RecordCopy.signalAfter (r : RecordCopy) : Bool := r.word0.getLsbD 24

/-- The signal number of a MOVE. -/
def RecordCopy.signal (r : RecordCopy) : SignalId := (r.word0.extractLsb' 16 4).toFin

/-- The count of a MOVE, 0 to 8,191 as encoded. -/
def RecordCopy.count (r : RecordCopy) : Nat := (r.word0.extractLsb' 0 13).toNat

/-- The repeat of a LINK. -/
def RecordCopy.repeatCount (r : RecordCopy) : Nat := (r.word0.extractLsb' 0 12).toNat

/-- CONSUME of a WAIT. -/
def RecordCopy.consume (r : RecordCopy) : Bool := r.word0.getLsbD 27

/-- POST_ON_TIMEOUT of a WAIT. -/
def RecordCopy.postOnTimeout (r : RecordCopy) : Bool := r.word0.getLsbD 26

/-- The signal mask of a WAIT or a RAISE. -/
def RecordCopy.mask (r : RecordCopy) : Half := r.word1.low

/-- The timeout of a WAIT. -/
def RecordCopy.timeout (r : RecordCopy) : Nat := r.word2.low.toNat

/-- The tag of a MOVE, POST, WAIT or STOP. -/
def RecordCopy.tag (r : RecordCopy) : Half := r.word3.low

/-- The reserved bits of a header, by kind (11.2). -/
def RecordKind.reserved : RecordKind → Word
  | .move => 0x00F0E000
  | .link => 0x0FFFF000
  | .post => 0x0FFFFFFF
  | .wait => 0x03FFFFFF
  | .raise => 0x0FFFFFFF
  | .stop => 0x0DFFFFFF

/-- The validation of a loaded record at a record pointer (R4): the cause and the offending address of the first check that
fails, or nothing for a valid record. -/
def RecordCopy.validate (r : RecordCopy) (pointer : LAddr) : Option (FaultCause × LAddr) :=
  match r.kind with
  | none => some (.badKind, pointer)
  | some k =>
    if r.word0 &&& k.reserved ≠ 0 then some (.badField, pointer)
    else match k with
      | .move =>
        if r.count = 0 ∨ 4096 < r.count then some (.badField, pointer)
        else if refReservedSet r.word1 then some (.badField, pointer + 1)
        else if refReservedSet r.word2 then some (.badField, pointer + 2)
        else none
      | .link =>
        if refReservedSet r.word1 then some (.badField, pointer + 1)
        else if !refIndirect r.word1 && !isAligned4 (refAddress r.word1) then
          some (.misaligned, refAddress r.word1)
        else none
      | .wait => if r.mask = 0 then some (.badField, pointer + 1) else none
      | .raise => if r.mask = 0 then some (.badField, pointer + 1) else none
      | .post => none
      | .stop => none

/-- The words of a record copy by number. -/
def RecordCopy.word (r : RecordCopy) (k : Nat) : Word :=
  match k with
  | 0 => r.word0
  | 1 => r.word1
  | 2 => r.word2
  | _ => r.word3

/-! ### Page map and schedule entries (R102, R47, 11.3) -/

/-- The page map entry a written word spells; the unassigned target kind code spells none (R103). -/
def MapEntry.ofWord (w : Word) : Option MapEntry :=
  let entry (kind : TargetKind) : MapEntry :=
    { valid := w.getLsbD 31, kind := kind, read := w.getLsbD 27, write := w.getLsbD 26
      port := (w.extractLsb' 24 2).toFin, page := w.extractLsb' 16 6, mask := w.extractLsb' 0 12 }
  match (w.extractLsb' 28 2).toNat with
  | 0 => some (entry .memory)
  | 1 => some (entry .portRx)
  | 2 => some (entry .portTx)
  | _ => none

/-- The code of a target kind. -/
def TargetKind.code : TargetKind → BitVec 2
  | .memory => 0
  | .portRx => 1
  | .portTx => 2

/-- A page map entry as it reads; reserved bits read 0 (R175). -/
def MapEntry.toWord (e : MapEntry) : Word :=
  BitVec.ofBool e.valid ++ (0 : BitVec 1) ++ e.kind.code ++ BitVec.ofBool e.read ++
    BitVec.ofBool e.write ++ BitVec.ofFin (w := 2) e.port ++ (0 : BitVec 2) ++ e.page ++ (0 : BitVec 4) ++ e.mask

/-- Whether the lane mask of an entry includes a lane (R102). -/
def MapEntry.admits (e : MapEntry) (l : LaneId) : Bool := e.mask.getLsbD l.val

/-- The schedule entry a written halfword spells. -/
def ScheduleEntry.ofHalf (v : Half) : ScheduleEntry :=
  ⟨v.getLsbD 15, v.getLsbD 14, v.extractLsb' 0 4⟩

/-- A schedule entry as it reads. -/
def ScheduleEntry.toHalf (e : ScheduleEntry) : Half :=
  BitVec.ofBool e.endFlag ++ BitVec.ofBool e.vacant ++ (0 : BitVec 10) ++ e.lane

/-- A lane number from a four-bit lane field; 12 to 15 name none. -/
def laneOfField (f : BitVec 4) : Option LaneId :=
  if h : f.toNat < 12 then some ⟨f.toNat, h⟩ else none

/-- The lane an entry names; a vacant entry names none (R47). -/
def ScheduleEntry.named (e : ScheduleEntry) : Option LaneId :=
  if e.vacant then none else laneOfField e.lane

/-! ### Codes (11.4 to 11.7) -/

/-- The codes of the lane states. -/
def LaneState.code : LaneState → BitVec 3
  | .off => 0
  | .idle => 1
  | .active => 2
  | .blocked => 3
  | .waiting => 4
  | .halted => 5
  | .faulted => 6

/-- The codes of the phases. -/
def Phase.code : Phase → BitVec 3
  | .load => 0
  | .dispatch => 1
  | .resolve => 2
  | .transfer => 3
  | .finish => 4

/-- The codes of the halt reasons; 0 is absent. -/
def HaltReason.code : Option HaltReason → BitVec 2
  | none => 0
  | some .host => 1
  | some .step => 2
  | some .breakFlag => 3

/-- The codes of the resume states; 0 is absent. -/
def Resume.code : Option Resume → BitVec 2
  | none => 0
  | some .active => 1
  | some (.blocked _) => 2
  | some .waiting => 3

/-- The held reasons of a resume state, empty unless it is BLOCKED. -/
def Resume.held : Option Resume → Reasons
  | some (.blocked h) => h
  | _ => .empty

/-- The codes of DEFERRED. -/
def Deferred.code : Option Deferred → BitVec 2
  | none => 0
  | some .halt => 1
  | some .abort => 2
  | some (.fault _ _) => 3

/-- The codes of the resolve target. -/
def ResolveTarget.code : ResolveTarget → BitVec 2
  | .src => 0
  | .dst => 1
  | .link => 2

/-- The codes of a cursor status. -/
def CursorStatus.code : CursorStatus → BitVec 2
  | .unset => 0
  | .pending => 1
  | .inFlight => 2
  | .mapped _ => 3

/-- The codes of a cursor role. -/
def Role.code : Role → BitVec 2
  | .walk => 0
  | .hop => 1
  | .src => 2
  | .dst => 3

/-- The codes of an entry kind; 0 shows no entry. -/
def EntryKind.code : EntryKind → BitVec 3
  | .post => 1
  | .moveDone => 2
  | .stop => 3
  | .timeout => 4

/-- The codes of a fault cause; 0 is absent. -/
def FaultCause.code : FaultCause → BitVec 4
  | .badKind => 1
  | .badField => 2
  | .misaligned => 3
  | .range => 4
  | .unmapped => 5
  | .denied => 6
  | .noRight => 7
  | .targetKind => 8
  | .chainDepth => 9
  | .nestedRepeat => 10
  | .portOff => 11

/-- The codes of REFUSAL_CAUSE; 0 is NONE. -/
def BusCause.code : Option BusCause → BitVec 4
  | none => 0
  | some .readOnly => 1
  | some .activeTable => 2
  | some .badLane => 3
  | some .badTarget => 4
  | some .periodLow => 5
  | some .clearing => 6
  | some .splitOrder => 7
  | some .queueEmpty => 8

/-- The codes of LANE_RESULT. -/
def LaneResult.code : LaneResult → Half
  | .none => 0
  | .accepted => 1
  | .refusedState => 2
  | .refusedArgument => 3
  | .refusedClearing => 4

/-- The codes of COMMAND_RESULT. -/
def CommandResult.code : CommandResult → Half
  | .none => 0
  | .accepted => 1
  | .refusedState => 2
  | .refusedClearing => 3
  | .refusedArgument => 4

/-! ### The window's address map (11.1) -/

/-- The items below the port blocks, with their offsets: the global, interrupt, refusal, signal and wheel items. -/
def lowItemsA : List (Nat × Item) :=
  [(0x000, .vendorCode), (0x002, .partCode), (0x004, .revision), (0x010, .globalStatus),
   (0x012, .globalCommand), (0x014, .commandResult), (0x016, .aperturePage), (0x020, .intStatus),
   (0x022, .intEnable), (0x028, .refusalCause), (0x02A, .refusalOffset), (0x02C, .refusalCount),
   (0x030, .signals), (0x032, .signalSet), (0x034, .signalClear), (0x040, .wheelPosition),
   (0x042, .tableSelect), (0x044, .slotPeriod), (0x046, .wheelRotation),
   (0x048, .split .slotCount .low), (0x04A, .split .slotCount .high), (0x04C, .overrunCount)]

/-- The lane items and the first half of the lane view. -/
def lowItemsB : List (Nat × Item) :=
  [(0x060, .laneCommand), (0x062, .laneArgument), (0x064, .laneResult), (0x066, .laneSelect),
   (0x068, .laneFaultSummary), (0x06A, .laneHaltSummary), (0x070, .laneState), (0x072, .laneParts),
   (0x074, .recordPointer), (0x076, .laneConfig), (0x078, .laneProgress), (0x07A, .resolvedSource),
   (0x07C, .resolvedDestination), (0x07E, .remaining), (0x080, .sourcePosition),
   (0x082, .destinationPosition), (0x084, .repeatAddress), (0x086, .repeatRemaining)]

/-- The second half of the lane view and the queue items. -/
def lowItemsC : List (Nat × Item) :=
  [(0x088, .waitMask), (0x08A, .waitTimeout), (0x08C, .partTag), (0x08E, .faultInfo),
   (0x090, .faultRecordAddress), (0x092, .faultOffending), (0x094, .missedSlots),
   (0x096, .split .beats .low), (0x098, .split .beats .high), (0x09A, .cursorPagesA),
   (0x09C, .cursorPagesB), (0x09E, .recordWords), (0x0A0, .queueHeadId), (0x0A2, .queueHeadTag),
   (0x0A4, .queueHeadAddress), (0x0A6, .queueHeadStamp), (0x0A8, .queueLevel),
   (0x0AA, .queueNextSequence), (0x0AC, .queueThreshold), (0x0AE, .queuePop)]

/-- The entry of an offset in a list of items; an offset that is not listed names no item. -/
def lookupItem : List (Nat × Item) → Nat → Item
  | [], _ => .unused
  | (o, i) :: rest, n => if o = n then i else lookupItem rest n

/-- The item at a byte offset within a port's block (11.6). -/
def portItem (port : PortId) (n : Nat) : Item :=
  match n with
  | 0x0 => .portConfig port
  | 0x2 => .portMarks port
  | 0x4 => .split (.idleWord port) .low
  | 0x6 => .split (.idleWord port) .high
  | 0x8 => .portStatus port
  | 0xA => .portCounter port .overruns
  | 0xC => .portCounter port .underruns
  | _ => .portCounter port .frameErrors

/-- An offset as the address lines A10 to A1 carry it: bit 0 has no line (R161; log 17). -/
def alignOffset (offset : WindowOffset) : WindowOffset := offset &&& 0x7FE

/-- Which half of a 32-bit item lies at an offset: the low half at the lower of its two offsets. -/
def halfAt (n : Nat) : HalfOf := if n / 2 % 2 = 0 then .low else .high

/-- What a byte offset of the window names (11.1). -/
def itemAt (offset : WindowOffset) : Item :=
  let n := (alignOffset offset).toNat
  if 0x400 ≤ n then .split (.aperture (BitVec.ofNat 8 ((n - 0x400) / 4))) (halfAt n)
  else if 0x200 ≤ n then .split (.mapEntry (BitVec.ofNat 7 ((n - 0x200) / 4))) (halfAt n)
  else if 0x180 ≤ n then .unused
  else if 0x140 ≤ n then .scheduleEntry .b (Fin.ofNat 32 ((n - 0x140) / 2))
  else if 0x100 ≤ n then .scheduleEntry .a (Fin.ofNat 32 ((n - 0x100) / 2))
  else if 0x0C0 ≤ n then portItem (Fin.ofNat 4 ((n - 0x0C0) / 16)) ((n - 0x0C0) % 16)
  else lookupItem (lowItemsA ++ lowItemsB ++ lowItemsC) n

/-- The offset of a half of a 32-bit item (11.1, 11.4, 11.6). -/
def item32Offset (item : Item32) (half : HalfOf) : WindowOffset :=
  let low : WindowOffset := match item with
    | .slotCount => 0x048
    | .beats => 0x096
    | .idleWord p => 0x0C4 + BitVec.ofNat 11 (16 * p.val)
    | .mapEntry p => 0x200 + BitVec.ofNat 11 (4 * p.toNat)
    | .aperture w => 0x400 + BitVec.ofNat 11 (4 * w.toNat)
  match half with
  | .low => low
  | .high => low + 2

/-- The offset of a schedule entry (R48). -/
def scheduleOffset (table : Table) (entry : Fin 32) : WindowOffset :=
  match table with
  | .a => 0x100 + BitVec.ofNat 11 (2 * entry.val)
  | .b => 0x140 + BitVec.ofNat 11 (2 * entry.val)

end Sys2Proof.Machine
end

