-- ==== Sys2Proof/Machine/Flags.lean ====
section
/-! DEFINITION. The sticky flags: interrupt status, its sources and IRQ (R140 to R142), and the refusal capture (R166, R167). -/

namespace Sys2Proof.Machine

/-- The eight interrupt status bits (R140). -/
inductive IntBit
  | queue
  | laneFault
  | laneHalt
  | port
  | overrun
  | swap
  | access
  | clearDone
deriving DecidableEq, Repr

/-- The bit number of an interrupt source (R140). -/
def IntBit.index : IntBit → Nat
  | .queue => 0
  | .laneFault => 1
  | .laneHalt => 2
  | .port => 3
  | .overrun => 4
  | .swap => 5
  | .access => 6
  | .clearDone => 7

/-- A source sets its status bit, enabled or not (R140). -/
def State.setInt (s : State) (b : IntBit) : State :=
  { s with ints := { s.ints with status := s.ints.status ||| BitVec.twoPow 8 b.index } }

/-- Whether a status bit is set. -/
def State.intSet (s : State) (b : IntBit) : Bool := s.ints.status.getLsbD b.index

/-- IRQ: high while at least one bit is set in both registers (R142); low while RESET is asserted (R171). -/
def State.irq (s : State) : Bool := !s.resetPin && (s.ints.status &&& s.ints.enable) != 0

/-- What the refusal capture takes of a refusal (R167). -/
def Capture.take (c : Capture) (cause : BusCause) (offset : WindowOffset) : Capture :=
  if c.count = 0 then ⟨some cause, offset, 1⟩
  else { c with count := if c.count = 255 then 255 else c.count + 1 }

/-- A refused host access (R166): the capture takes it and INT ACCESS is set; nothing else changes. -/
def State.refuse (s : State) (cause : BusCause) (offset : WindowOffset) : State :=
  ({ s with window := { s.window with capture := s.window.capture.take cause offset } }).setInt .access

/-- A host write of INT_STATUS (R141): each bit written as 1 clears, and a 1 to ACCESS empties the refusal capture. -/
def writeIntStatus (s : State) (v : Half) : State :=
  { s with
    ints := { s.ints with status := s.ints.status &&& ~~~ (v.setWidth 8) }
    window := { s.window with
      capture := if v.getLsbD 6 then .empty else s.window.capture } }

/-- A host write of INT_ENABLE (R142). -/
def writeIntEnable (s : State) (v : Half) : State :=
  { s with ints := { s.ints with enable := v.setWidth 8 } }

end Sys2Proof.Machine
end

