-- ==== Sys2Proof/Machine/Ops.lean ====
section
/-! DEFINITION. The named operations that the commands share: lane access, cursors and the lookup request queue (R105 to R107),
readiness (R24, R25), halting, faulting and clearing a lane (R30, R35, R41, R28), the completion of a record (R16, R36, R90),
the push of a completion entry (R132), and the signal block's set and wake (R121, R124, R125). -/

namespace Sys2Proof.Machine

/-- An event of the part: while RESET is asserted the part holds itself in its reset state (R171). -/
def unlessReset (s : State) (f : State → State) : State := if s.resetPin then s else f s

/-! ### Lanes -/

/-- The twelve lanes in ascending number. -/
def allLanes : List LaneId := [0, 1, 2, 3, 4, 5, 6, 7, 8, 9, 10, 11]

/-- The sixteen signals in ascending number. -/
def allSignals : List SignalId := [0, 1, 2, 3, 4, 5, 6, 7, 8, 9, 10, 11, 12, 13, 14, 15]

/-- The context of a lane. -/
def State.lane (s : State) (l : LaneId) : Lane := s.lanes.get l

/-- The state with one lane's context replaced. -/
def State.setLane (s : State) (l : LaneId) (x : Lane) : State := { s with lanes := s.lanes.set l.val x l.isLt }

/-- The state with one lane's context changed. -/
def State.updLane (s : State) (l : LaneId) (f : Lane → Lane) : State := s.setLane l (f (s.lane l))

/-- A port. -/
def State.port (s : State) (p : PortId) : Port := s.ports.get p

/-- The state with one port changed. -/
def State.updPort (s : State) (p : PortId) (f : Port → Port) : State :=
  { s with ports := s.ports.set p.val (f (s.port p)) p.isLt }

/-- Whether a beat of this lane's own is in progress (R69). -/
def State.ownBeat (s : State) (l : LaneId) : Bool :=
  match s.beat with
  | some b => b.lane == l
  | none => false

/-- The cursor of a role. -/
def Lane.cursor (x : Lane) : Role → Cursor
  | .walk => x.walk
  | .hop => x.hop
  | .src => x.src
  | .dst => x.dst

/-- The context with the cursor of a role replaced. -/
def Lane.setCursor (x : Lane) (r : Role) (c : Cursor) : Lane :=
  match r with
  | .walk => { x with walk := c }
  | .hop => { x with hop := c }
  | .src => { x with src := c }
  | .dst => { x with dst := c }

/-- Whether a cursor is MAPPED. -/
def Cursor.isMapped (c : Cursor) : Bool :=
  match c.status with
  | .mapped _ => true
  | _ => false

/-- The four roles in role order (R112). -/
def allRoles : List Role := [.walk, .hop, .src, .dst]

/-- The cursors a phase needs MAPPED (R24). -/
def Phase.needs : Phase → List Role
  | .load => [.walk]
  | .dispatch => []
  | .resolve => [.hop]
  | .transfer => [.src, .dst]
  | .finish => []

/-- Whether every cursor the lane's phase needs is MAPPED. -/
def Lane.neededMapped (x : Lane) : Bool := x.phase.needs.all fun r => (x.cursor r).isMapped

/-- READY (R24). -/
def State.ready (s : State) (l : LaneId) : Bool :=
  (s.lane l).state == .active && (s.lane l).neededMapped && !s.ownBeat l

/-! ### Cursors, retargets and releases -/

/-- A cursor becomes PENDING on a page, at the tail of the lookup request queue (R107). -/
def State.enqueue (s : State) (l : LaneId) (r : Role) (page : BitVec 7) : State :=
  let s := s.updLane l fun x => x.setCursor r ⟨page, .pending⟩
  { s with map := { s.map with queue := s.map.queue ++ [(l, r)] } }

/-- A stale marking: a live lookup becomes stale, any other stays as it is (R107, R113). -/
def Disposition.toStale : Disposition → Disposition
  | .live => .stale
  | .stale => .stale
  | .abandoned => .abandoned

/-- The lookup in progress is marked stale (R107). -/
def State.markStale (s : State) : State :=
  { s with map := { s.map with
      lookup := s.map.lookup.map fun k => { k with disposition := k.disposition.toStale } } }

/-- The lookup in progress is marked abandoned (R107). -/
def State.abandonLookup (s : State) : State :=
  { s with map := { s.map with lookup := s.map.lookup.map fun k => { k with disposition := .abandoned } } }

/-- A retarget of a cursor to a logical page (R105). -/
def retarget (s : State) (l : LaneId) (r : Role) (page : BitVec 7) : State :=
  let c := (s.lane l).cursor r
  match c.status with
  | .unset => s.enqueue l r page
  | .pending => s.updLane l fun x => x.setCursor r ⟨page, .pending⟩
  | .inFlight =>
    if c.page = page then s
    else (s.updLane l fun x => x.setCursor r ⟨page, .inFlight⟩).markStale
  | .mapped _ => if c.page = page then s else s.enqueue l r page

/-- A release of a cursor: it becomes UNSET with logical page 0 (R106). -/
def release (s : State) (l : LaneId) (r : Role) : State :=
  let unsetIt (s : State) : State := s.updLane l fun x => x.setCursor r .unset
  match ((s.lane l).cursor r).status with
  | .unset => s
  | .pending =>
    let s := unsetIt s
    { s with map := { s.map with queue := s.map.queue.filter fun q => q != (l, r) } }
  | .inFlight => (unsetIt s).abandonLookup
  | .mapped _ => unsetIt s

/-- The release of all four cursors of a lane (R106). -/
def releaseAll (s : State) (l : LaneId) : State := allRoles.foldl (fun s r => release s l r) s

/-! ### Readiness and the lane's entries into its states -/

/-- The lane goes on with these block reasons, checked against the cursors its phase needs: MAP is added if one is not MAPPED;
with no reason the lane is ACTIVE, else BLOCKED (R23, R25). -/
def settle (s : State) (l : LaneId) (reasons : Reasons) : State :=
  s.updLane l fun x =>
    let r : Reasons := { reasons with map := reasons.map || !x.neededMapped }
    { x with reasons := r, state := if r = .empty then .active else .blocked }

/-- Entry to HALTED (R30, R36, R37): credit becomes 0 and INT LANE_HALT is set. -/
def enterHalted (s : State) (l : LaneId) (reason : HaltReason) (resume : Resume) : State :=
  (s.updLane l fun x =>
    { x with state := .halted, haltReason := some reason, resume := some resume, reasons := .empty, credit := 0 }).setInt
    .laneHalt

/-- HALT taken at once: from ACTIVE, BLOCKED or WAITING the lane enters HALTED with reason HOST and that state as resume
state, the block reasons moving into it (R30); any other state is left as it is. -/
def haltNow (s : State) (l : LaneId) : State :=
  match (s.lane l).state with
  | .active => enterHalted s l .host .active
  | .blocked => enterHalted s l .host (.blocked (s.lane l).reasons)
  | .waiting => enterHalted s l .host .waiting
  | _ => s

/-- Entry to FAULTED (R41): the fault record, INT LANE_FAULT, every cursor released, credit 0; record pointer, phase, record
copy, progress, repeat record and pending post are kept. -/
def enterFaulted (s : State) (l : LaneId) (f : FaultRecord) : State :=
  ((releaseAll s l).updLane l fun x =>
    { x with
      state := .faulted, reasons := .empty, portWait := none, wait := none, haltReason := none
      resume := none, deferred := none, credit := 0, fault := some f }).setInt .laneFault

/-- The cell address of a lane that resolves a reference (R94). -/
def Progress.cellAddress (p : Progress) : LAddr :=
  match p.resolveTarget with
  | .dst => p.resolvedDestination
  | _ => p.resolvedSource

/-- The lane's address for a role: what the fault record of an asynchronous fault shows as offending (R111, R152). -/
def Progress.addressOf (p : Progress) : Role → LAddr
  | .walk => p.pointer
  | .hop => p.cellAddress
  | .src => p.sourcePosition
  | .dst => p.destinationPosition

/-- The fault record of an asynchronous fault, from the lane context as it stands (R35, R111, R152; log 10). -/
def asyncRecord (x : Lane) (cause : FaultCause) (role : Role) : FaultRecord :=
  ⟨cause, x.progress.pointer, x.progress.addressOf role, role, x.progress.hopCount⟩

/-- What the deferred-request slot holds after a FAULT arrives (R33). -/
def deferFault (held : Option Deferred) (cause : FaultCause) (role : Role) : Option Deferred :=
  match held with
  | none => some (.fault cause role)
  | some .halt => some (.fault cause role)
  | some d => some d

/-- An asynchronous fault, taken by the lane's state (R35). -/
def asyncFault (s : State) (l : LaneId) (cause : FaultCause) (role : Role) : State :=
  let x := s.lane l
  match x.state with
  | .active =>
    if s.ownBeat l then s.updLane l fun x => { x with deferred := deferFault x.deferred cause role }
    else enterFaulted s l (asyncRecord x cause role)
  | .blocked => enterFaulted s l (asyncRecord x cause role)
  | .waiting => enterFaulted s l (asyncRecord x cause role)
  | .halted => enterFaulted s l (asyncRecord x cause role)
  | _ => s

/-! ### The record copy and the read index of RECORD_WORDS -/

/-- A taking or a dropping of a lane's record copy sets the read index to 0 if the lane is selected (R177). -/
def touchCopy (s : State) (l : LaneId) : State :=
  if s.window.laneSelect = l then { s with window := { s.window with recordIndex := 0 } } else s

/-- The lane's record copy is dropped (R1). A lane that holds none drops nothing. -/
def dropCopy (s : State) (l : LaneId) : State :=
  if (s.lane l).progress.current.isSome then
    touchCopy (s.updLane l fun x => { x with progress := { x.progress with current := none } }) l
  else s

/-- The clearing of a lane's context, common to DISABLE and ABORT (R28, R32): into the given state, with the given
configuration; the record pointer and both counters are kept. -/
def clearLane (s : State) (l : LaneId) (into : LaneState) (config : LaneConfig) : State :=
  (releaseAll (dropCopy s l) l).updLane l fun x =>
    { x with
      state := into, reasons := .empty, portWait := none, phase := .load
      progress := .cleared x.progress.pointer, repeatRecord := none, pendingPost := none, wait := none
      haltReason := none, resume := none, deferred := none, credit := 0, config := config, fault := none }

/-- The entry of a lane to IDLE at the completion of its STOP (R14). -/
def enterIdleAtStop (s : State) (l : LaneId) : State :=
  (releaseAll (dropCopy s l) l).updLane l fun x =>
    { x with
      state := .idle, reasons := .empty, portWait := none, phase := .load, repeatRecord := none
      pendingPost := none, wait := none, credit := 0 }

/-! ### Completion of a record -/

/-- What a record's work leaves the lane in, before STEP and a deferred request are taken (R34, R72). -/
inductive Verdict
  /-- The lane goes on with these block reasons and this port wait. -/
  | run (reasons : Reasons) (portWait : Option PortWait)
  /-- A record has completed; the lane goes on, or halts by STEP. -/
  | completed
  /-- The lane enters WAITING with this wait. -/
  | waiting (wait : Wait)
  /-- The lane halts at a BREAK. -/
  | breakHalt
  /-- The lane's STOP has completed. -/
  | idle
  /-- The lane has met a fault. -/
  | fault (record : FaultRecord)
deriving DecidableEq, Repr

/-- The completion of a record with an advance by 4 (R16): the copy is dropped, the phase becomes LOAD, the pointer advances
and WALK is retargeted; at 0x7FFC the lane faults RANGE in place of advancing (log 11). -/
def completeAdvance (s : State) (l : LaneId) : State × Verdict :=
  let s := (dropCopy s l).updLane l fun x => { x with phase := .load }
  let pointer := (s.lane l).progress.pointer
  if pointer = Config.lastRecord then
    (s, .fault ⟨.range, Config.lastRecord, Config.lastRecord, .walk, 0⟩)
  else
    let next := pointer + 4
    let s := s.updLane l fun x => { x with progress := { x.progress with pointer := next } }
    (retarget s l .walk next.page, .completed)

/-- The lane takes a verdict, with the STEP value that counts (R36, R37, R41, R25, R14). -/
def applyVerdict (s : State) (l : LaneId) (step : Bool) (v : Verdict) : State :=
  match v with
  | .run reasons portWait => settle (s.updLane l fun x => { x with portWait := portWait }) l reasons
  | .completed => if step then enterHalted s l .step .active else settle s l .empty
  | .waiting wait =>
    s.updLane l fun x =>
      { x with state := .waiting, reasons := .empty, wait := some wait, credit := 0 }
  | .breakHalt => enterHalted s l .breakFlag .active
  | .idle => enterIdleAtStop s l
  | .fault f => enterFaulted s l f

/-- The completion of a WAIT outside a beat: by a wake, by a timeout or by RESUME, with the STEP flag as it stands
(R125, R127, R31, R36). -/
def completeWait (s : State) (l : LaneId) : State :=
  let s := s.updLane l fun x => { x with wait := none }
  let step := (s.lane l).config.step
  let (s, v) := completeAdvance s l
  applyVerdict s l step v

/-! ### The completion queue -/

/-- A push of a completion entry for a lane; nothing if the queue is full (R132, R133). -/
def push (s : State) (l : LaneId) (kind : EntryKind) (tag : Half) : Option State :=
  if Config.queueEntries ≤ s.queue.entries.length then none
  else
    let entry : Entry :=
      ⟨s.queue.nextSequence, l, kind, tag, (s.lane l).progress.pointer, s.wheel.slotCount.setWidth 16⟩
    let entries := s.queue.entries ++ [entry]
    let s := { s with queue := { s.queue with entries := entries, nextSequence := s.queue.nextSequence + 1 } }
    some (if s.queue.thresholdField.toNat + 1 ≤ entries.length then s.setInt .queue else s)

/-! ### Signals -/

/-- The lowest-numbered signal of a set. -/
def lowestSignal (mask : Half) : Option SignalId := allSignals.find? fun n => mask.getLsbD n.val

/-- The signals without one of them. -/
def clearSignal (s : State) (n : SignalId) : State :=
  { s with signals := s.signals &&& ~~~ (BitVec.twoPow 16 n.val) }

/-- Whether a lane is a waiter of a signal: WAITING, with the signal in its wait's mask (R124). -/
def isWaiter (s : State) (n : SignalId) (l : LaneId) : Bool :=
  (s.lane l).state == .waiting &&
    match (s.lane l).wait with
    | some w => w.mask.getLsbD n.val
    | none => false

/-- Whether a lane's wait consumes. -/
def consumes (s : State) (l : LaneId) : Bool :=
  match (s.lane l).wait with
  | some w => w.consume
  | none => false

/-- The lanes a signal wakes when it goes from clear to set: every non-consuming waiter, and the lowest-numbered consuming one
(R124), in ascending lane number (log 12). -/
def wokenBy (s : State) (n : SignalId) : List LaneId :=
  let waiters := allLanes.filter (isWaiter s n)
  let consumer := waiters.find? (consumes s)
  waiters.filter fun l => !consumes s l || some l == consumer

/-- A set of one signal, with the wake it causes (R121, R124). -/
def setSignal (s : State) (n : SignalId) : State :=
  if s.signals.getLsbD n.val then s
  else
    let woken := wokenBy s n
    let set : State := { s with signals := s.signals ||| BitVec.twoPow 16 n.val }
    let after := if woken.any (consumes s) then s else set
    woken.foldl completeWait after

/-- A set of every signal of a mask, in ascending number (R121). -/
def setSignals (s : State) (mask : Half) : State :=
  allSignals.foldl (fun s n => if mask.getLsbD n.val then setSignal s n else s) s

/-! ### Releases of block reasons -/

/-- A block reason is removed from a lane: from a BLOCKED lane's reasons, which enters ACTIVE, checked, when none remains
(R23, R25); from a HALTED lane's held reasons, whose resume state becomes ACTIVE when none remains (R38). -/
def removeReason (s : State) (l : LaneId) (remove : Reasons → Reasons) : State :=
  let x := s.lane l
  match x.state with
  | .blocked =>
    if remove x.reasons = .empty then settle s l .empty
    else s.updLane l fun x => { x with reasons := remove x.reasons }
  | .halted =>
    match x.resume with
    | some (.blocked held) =>
      s.updLane l fun x =>
        { x with resume := some (if remove held = .empty then .active else .blocked (remove held)) }
    | _ => s
  | _ => s

/-- Whether a lane holds a reason, as a block reason or as a held reason (R23, R38). -/
def holdsReason (x : Lane) (p : Reasons → Bool) : Bool :=
  match x.state with
  | .blocked => p x.reasons
  | .halted => p (Resume.held x.resume)
  | _ => false

end Sys2Proof.Machine
end

