-- ==== Sys2Proof/Machine/Beats.lean ====
section
/-! DEFINITION. Beats: their beginning (R59, R69), their word accesses (R73, R81, R82, R83) and the beat end with its results
(R72 to R98), and the meanings of RECORD_LOAD, CELL_READ, WORD_STEP and BEAT_END. -/

namespace Sys2Proof.Machine

/-! ### The beginning of a beat -/

/-- The translation a MAPPED cursor gives a beat. -/
def Cursor.forBeat (c : Cursor) : Option BeatCursor :=
  match c.status with
  | .mapped t => some ⟨c.page, t⟩
  | _ => none

/-- The work a beat of a lane begins with: the translations the needed cursors of the phase hold (R69, R71). -/
def Lane.beatWork (x : Lane) : Option BeatWork :=
  match x.phase with
  | .load => x.walk.forBeat.map fun w => .load w []
  | .dispatch => some .dispatch
  | .resolve => x.hop.forBeat.map fun h => .resolve h none
  | .transfer =>
    match x.src.forBeat, x.dst.forBeat with
    | some a, some b => some (.transfer a b 0 none none)
    | _, _ => none
  | .finish => some .finish

/-- A beat for a lane begins, with the lane's STEP value, burst, translations and progress (R59, R69). -/
def beginBeat (s : State) (l : LaneId) : State :=
  let x := s.lane l
  match x.beatWork with
  | none => s
  | some work =>
    { s with beat := some ⟨l, x.config.step, x.config.burstField.toNat + 1, x.progress, work⟩ }

/-! ### RECORD_LOAD -/

/-- The word at an offset through a translation; a port has no words (R83, R102). -/
def readThrough (s : State) (t : Translation) (a : LAddr) : Option Word :=
  match t with
  | .memory page _ _ => some (s.readMem page a.offset)
  | .port _ _ => none

/-- The words numbered `from` on, at most `n` of them and at most to the fourth, of the record at a pointer. -/
def readRecord (s : State) (t : Translation) (pointer : LAddr) : Nat → Nat → List Word
  | 0, _ => []
  | n + 1, k =>
    if 4 ≤ k then []
    else match readThrough s t (pointer + BitVec.ofNat 15 k) with
      | some w => w :: readRecord s t pointer n (k + 1)
      | none => []

/-- The record copy of four words. -/
def recordOf : List Word → Option RecordCopy
  | [a, b, c, d] => some ⟨a, b, c, d⟩
  | _ => none

/-- A LOAD beat reads its next words of the record through the WALK translation, word 0 first (R73; log 4). -/
def recordLoad (s : State) (n : Nat) : State :=
  match s.beat with
  | some b =>
    match b.work with
    | .load walk words =>
      let all := words ++ readRecord s walk.target b.progress.pointer n words.length
      let progress :=
        match recordOf all with
        | some r => { b.progress with current := some r }
        | none => b.progress
      { s with beat := some { b with work := .load walk all, progress := progress } }
    | _ => s
  | none => s

/-- RECORD_LOAD (R73). -/
def execRecordLoad (words : Fin 4) (s : State) : Host.Outcome State Fault Refusal :=
  .next (unlessReset s fun s => recordLoad s (words.val + 1))

/-! ### CELL_READ -/

/-- A RESOLVE beat reads its cell through the HOP translation, and the hop count increases by 1 (R81, R95). -/
def cellRead (s : State) : State :=
  match s.beat with
  | some b =>
    match b.work with
    | .resolve hop none =>
      match readThrough s hop.target b.progress.cellAddress with
      | some w =>
        { s with beat := some { b with
            work := .resolve hop (some w), progress := { b.progress with hopCount := b.progress.hopCount + 1 } } }
      | none => s
    | _ => s
  | none => s

/-- CELL_READ (R95). -/
def execCellRead (s : State) : Host.Outcome State Fault Refusal := .next (unlessReset s cellRead)

/-! ### WORD_STEP -/

/-- Whether a position advances: a MEMORY target whose FIXED flag is clear (R82). -/
def advancing (t : Translation) (fixed : Bool) : Bool :=
  match t with
  | .memory _ _ _ => !fixed
  | .port _ _ => false

/-- Whether an advancing position lies on another logical page than its translation's (R82, test 3). -/
def crossed (c : BeatCursor) (fixed : Bool) (position : LAddr) : Bool :=
  advancing c.target fixed && position.page != c.page

/-- The tests before a word, in their order (R82): the first that holds. -/
def transferTests (s : State) (r : RecordCopy) (p : Progress) (burst moved : Nat) (src dst : BeatCursor) : Option Stop :=
  if p.remaining = 0 then some .finish
  else if moved = burst then some .burst
  else if crossed src r.srcFixed p.sourcePosition || crossed dst r.dstFixed p.destinationPosition then
    some .crossing
  else
    let sourceOff := match src.target with
      | .port q _ => !(s.port q).rxEnable
      | .memory _ _ _ => false
    let destinationOff := match dst.target with
      | .port q _ => !(s.port q).txEnable
      | .memory _ _ _ => false
    if sourceOff then some (.portOff .src)
    else if destinationOff then some (.portOff .dst)
    else
      let emptyAt := match src.target with
        | .port q _ => if (s.port q).rxFifo = [] then some q else none
        | .memory _ _ _ => none
      let fullAt := match dst.target with
        | .port q _ => if Config.fifoWords ≤ (s.port q).txFifo.length then some q else none
        | .memory _ _ _ => none
      match emptyAt, fullAt with
      | some q, _ => some (.portEmpty q)
      | none, some q => some (.portFull q)
      | none, none => none

/-- The read of a word step: a memory word, or the head of a receive FIFO, popped (R83). -/
def readSource (s : State) (t : Translation) (position : LAddr) : Word × State :=
  match t with
  | .memory page _ _ => (s.readMem page position.offset, s)
  | .port q _ =>
    match (s.port q).rxFifo with
    | [] => (0, s)
    | w :: rest => (w, s.updPort q fun x => { x with rxFifo := rest })

/-- A word added at the tail of a FIFO, which never holds more than 32 (R148; log 24). -/
def pushFifo (fifo : List Word) (w : Word) : List Word :=
  if Config.fifoWords ≤ fifo.length then fifo else fifo ++ [w]

/-- The write of a word step: a memory word, or a push at the tail of a transmit FIFO, not made if the direction has been
disabled since the step's tests (R83). -/
def writeDestination (s : State) (t : Translation) (position : LAddr) (h : HeldWord) : State :=
  match t with
  | .memory page _ _ => s.writeMem page position.offset h.word
  | .port q _ => if h.discard then s else s.updPort q fun x => { x with txFifo := pushFifo x.txFifo h.word }

/-- The next position; one at 0x7FFF has no next address and stays (R83, R86). -/
def nextPosition (advances : Bool) (a : LAddr) : LAddr :=
  if advances && a != Config.lastAddress then a + 1 else a

/-- The tests and the read of a word step (R82, R83). -/
def wordRead (s : State) : State :=
  match s.beat with
  | some b =>
    match b.work, b.progress.current with
    | .transfer src dst moved none none, some r =>
      match transferTests s r b.progress b.burst moved src dst with
      | some stop => { s with beat := some { b with work := .transfer src dst moved none (some stop) } }
      | none =>
        let (w, s) := readSource s src.target b.progress.sourcePosition
        { s with beat := some { b with work := .transfer src dst moved (some ⟨w, false⟩) none } }
    | _, _ => s
  | none => s

/-- The write and the counts of a word step (R83), with the RANGE fault of R86. -/
def wordWrite (s : State) : State :=
  match s.beat with
  | some b =>
    match b.work, b.progress.current with
    | .transfer src dst moved (some h) none, some r =>
      let p := b.progress
      let srcMoves := advancing src.target r.srcFixed
      let dstMoves := advancing dst.target r.dstFixed
      let s := writeDestination s dst.target p.destinationPosition h
      let remaining := p.remaining - 1
      let stop :=
        if remaining = 0 then none
        else if srcMoves && p.sourcePosition == Config.lastAddress then some (Stop.range .src)
        else if dstMoves && p.destinationPosition == Config.lastAddress then some (Stop.range .dst)
        else none
      let p : Progress :=
        { p with
          remaining := remaining
          sourcePosition := nextPosition srcMoves p.sourcePosition
          destinationPosition := nextPosition dstMoves p.destinationPosition }
      { s with beat := some { b with work := .transfer src dst (moved + 1) none stop, progress := p } }
    | _, _ => s
  | none => s

/-- A word step, or the part of it the command names (R82, R83; log 5). -/
def wordStep (s : State) (part : WordStepPart) : State :=
  match part with
  | .read => wordRead s
  | .write => wordWrite s
  | .whole => wordWrite (wordRead s)

/-- WORD_STEP (R82, R83). -/
def execWordStep (part : WordStepPart) (s : State) : Host.Outcome State Fault Refusal :=
  .next (unlessReset s fun s => wordStep s part)

/-! ### Dispatch by kind (R75 to R79) -/

/-- The lane goes on with no block reason of its own; MAP is found by the check of R25. -/
def Verdict.goOn : Verdict := .run .empty none

/-- The lane goes on blocked on the completion queue (R133). -/
def Verdict.onQueue : Verdict := .run ⟨false, false, true⟩ none

/-- The setting up of a transfer between two resolved addresses (R75, R96). -/
def setUpTransfer (s : State) (l : LaneId) (r : RecordCopy) (source destination : LAddr) : State × Verdict :=
  let s := s.updLane l fun x =>
    { x with
      phase := .transfer
      progress := { x.progress with
        resolvedSource := source, resolvedDestination := destination, remaining := r.count
        sourcePosition := source, destinationPosition := destination } }
  (retarget (retarget s l .src source.page) l .dst destination.page, .goOn)

/-- The beginning of the resolution of a reference at its first cell (R75, R76, R94, R96). -/
def beginResolution (s : State) (l : LaneId) (target : ResolveTarget) (cell : LAddr) : State × Verdict :=
  let s := s.updLane l fun x =>
    let p : Progress := { x.progress with resolveTarget := target, hopCount := 0 }
    { x with
      phase := .resolve
      progress := match target with
        | .dst => { p with resolvedDestination := cell }
        | _ => { p with resolvedSource := cell } }
  (retarget s l .hop cell.page, .goOn)

/-- Dispatch of a MOVE (R75). -/
def dispatchMove (s : State) (l : LaneId) (r : RecordCopy) : State × Verdict :=
  let source := refAddress r.word1
  let destination := refAddress r.word2
  if refIndirect r.word1 then beginResolution s l .src source
  else if refIndirect r.word2 then
    beginResolution (s.updLane l fun x => { x with progress := { x.progress with resolvedSource := source } }) l
      .dst destination
  else setUpTransfer s l r source destination

/-- What the repeat logic of R8 decides. -/
inductive LinkOutcome
  | taken (repeatRecord : Option RepeatRecord)
  | fallThrough
  | nested (address : LAddr)
deriving DecidableEq, Repr

/-- The repeat logic of a LINK at a pointer (R7, R8). -/
def linkOutcome (held : Option RepeatRecord) (pointer : LAddr) (n : Nat) : LinkOutcome :=
  if n = 0 then .taken held
  else match held with
    | none => .taken (some ⟨pointer, n⟩)
    | some rr =>
      if rr.address = pointer then
        if 1 < rr.remaining then .taken (some ⟨pointer, rr.remaining - 1⟩) else .fallThrough
      else .nested rr.address

/-- The end of a resolution without a fault: hop count 0, resolve target SRC, HOP released (R94, R96, R97). -/
def endResolution (s : State) (l : LaneId) : State :=
  release (s.updLane l fun x => { x with progress := { x.progress with hopCount := 0, resolveTarget := .src } }) l .hop

/-- A taken LINK: the pointer becomes the target and WALK is retargeted; the record completes (R7, R76, R90). -/
def takeLink (s : State) (l : LaneId) (target : LAddr) : State × Verdict :=
  let s := (dropCopy s l).updLane l fun x =>
    { x with phase := .load, progress := { x.progress with pointer := target } }
  (retarget s l .walk target.page, .completed)

/-- A LINK with its target known is acted on (R8, R9, R76, R97). `finishResolution` ends the resolution of an indirect one
unless the lane faults: a NESTED_REPEAT, and a fall-through at 0x7FFC that faults RANGE (R16), keep the hop count and the cell
address as the read left them (R95). `hops` is what a NESTED_REPEAT fault shows as hop count. -/
def actLink (s : State) (l : LaneId) (r : RecordCopy) (target : LAddr) (hops : Nat)
    (finishResolution : State → State) : State × Verdict :=
  let x := s.lane l
  match linkOutcome x.repeatRecord x.progress.pointer r.repeatCount with
  | .nested address => (s, .fault ⟨.nestedRepeat, x.progress.pointer, address, .walk, hops⟩)
  | .taken rr => takeLink ((finishResolution s).updLane l fun x => { x with repeatRecord := rr }) l target
  | .fallThrough =>
    let s := if x.progress.pointer = Config.lastRecord then s else finishResolution s
    completeAdvance (s.updLane l fun x => { x with repeatRecord := none }) l

/-- Dispatch of a LINK (R76). -/
def dispatchLink (s : State) (l : LaneId) (r : RecordCopy) : State × Verdict :=
  if refIndirect r.word1 then beginResolution s l .link (refAddress r.word1)
  else actLink s l r (refAddress r.word1) 0 id

/-- A push met a full queue: the entry becomes the lane's pending post, in phase FINISH (R133). -/
def takePendingPost (s : State) (l : LaneId) (kind : EntryKind) (tag : Half) : State × Verdict :=
  (s.updLane l fun x => { x with pendingPost := some ⟨kind, tag⟩, phase := .finish }, .onQueue)

/-- Dispatch of a POST (R77). -/
def dispatchPost (s : State) (l : LaneId) (r : RecordCopy) : State × Verdict :=
  match push s l .post r.tag with
  | some s => completeAdvance s l
  | none => takePendingPost s l .post r.tag

/-- Dispatch of a STOP (R77, R14). -/
def dispatchStop (s : State) (l : LaneId) (r : RecordCopy) : State × Verdict :=
  if r.postAfter then
    match push s l .stop r.tag with
    | some s => (s, .idle)
    | none => takePendingPost s l .stop r.tag
  else (s, .idle)

/-- The examination of a wait against the signals (R78, R31): with consume, the lowest-numbered set signal of the mask is
cleared. Nothing if no signal of the mask is set. -/
def satisfyWait (s : State) (mask : Half) (consume : Bool) : Option State :=
  match lowestSignal (s.signals &&& mask) with
  | some n => some (if consume then clearSignal s n else s)
  | none => none

/-- Dispatch of a WAIT (R78). A WAITING lane is in phase LOAD (R22). -/
def dispatchWait (s : State) (l : LaneId) (r : RecordCopy) : State × Verdict :=
  match satisfyWait s r.mask r.consume with
  | some s => completeAdvance s l
  | none =>
    (s.updLane l fun x => { x with phase := .load },
      .waiting ⟨r.mask, r.consume, r.timeout, r.postOnTimeout, r.tag⟩)

/-- Dispatch of a RAISE (R79). -/
def dispatchRaise (s : State) (l : LaneId) (r : RecordCopy) : State × Verdict :=
  completeAdvance (setSignals s r.mask) l

/-- Dispatch of a valid record by its kind (R75 to R79). -/
def dispatchRecord (s : State) (l : LaneId) (r : RecordCopy) : State × Verdict :=
  match r.kind with
  | some .move => dispatchMove s l r
  | some .link => dispatchLink s l r
  | some .post => dispatchPost s l r
  | some .wait => dispatchWait s l r
  | some .raise => dispatchRaise s l r
  | some .stop => dispatchStop s l r
  | none => (s, .goOn)

/-! ### The results of a beat by its phase -/

/-- The results of a LOAD beat (R73, R74, R4). -/
def loadResult (s : State) (l : LaneId) (r : RecordCopy) : State × Verdict :=
  let pointer := (s.lane l).progress.pointer
  match r.validate pointer with
  | some (cause, offending) => (s, .fault ⟨cause, pointer, offending, .walk, 0⟩)
  | none =>
    if r.breakFlag then (s.updLane l fun x => { x with phase := .dispatch }, .breakHalt)
    else dispatchRecord s l r

/-- The results of a RESOLVE beat that read a cell (R95 to R98). The hop count is the one after the read. -/
def resolveResult (s : State) (l : LaneId) (r : RecordCopy) (cell : Word) : State × Verdict :=
  let p := (s.lane l).progress
  let address := refAddress cell
  if refReservedSet cell then (s, .fault ⟨.badField, p.pointer, p.cellAddress, .hop, p.hopCount⟩)
  else if refIndirect cell then
    if 7 ≤ p.hopCount then (s, .fault ⟨.chainDepth, p.pointer, p.cellAddress, .hop, p.hopCount⟩)
    else
      let s := s.updLane l fun x =>
        { x with progress := match x.progress.resolveTarget with
            | .dst => { x.progress with resolvedDestination := address }
            | _ => { x.progress with resolvedSource := address } }
      (retarget s l .hop address.page, .goOn)
  else
    match p.resolveTarget with
    | .src =>
      if refIndirect r.word2 then
        beginResolution (s.updLane l fun x => { x with progress := { x.progress with resolvedSource := address } }) l
          .dst (refAddress r.word2)
      else setUpTransfer (endResolution s l) l r address (refAddress r.word2)
    | .dst => setUpTransfer (endResolution s l) l r p.resolvedSource address
    | .link =>
      if isAligned4 address then
        actLink s l r address p.hopCount fun s =>
          endResolution (s.updLane l fun x => { x with progress := { x.progress with resolvedSource := address } }) l
      else (s, .fault ⟨.misaligned, p.pointer, address, .hop, p.hopCount⟩)

/-- The completion of a MOVE after any push: SIGNAL_AFTER, SRC and DST released, the advance (R6, R88, R90). -/
def completeMove (s : State) (l : LaneId) (r : RecordCopy) : State × Verdict :=
  let s := if r.signalAfter then setSignal s r.signal else s
  completeAdvance (release (release s l .src) l .dst) l

/-- The finish step of a MOVE (R88). -/
def finishMove (s : State) (l : LaneId) (r : RecordCopy) : State × Verdict :=
  if r.postAfter then
    match push s l .moveDone r.tag with
    | some s => completeMove s l r
    | none => takePendingPost s l .moveDone r.tag
  else completeMove s l r

/-- The fault PORT_OFF of a role (R87, R153). -/
def portOffFault (p : Progress) (role : Role) (hops : Nat) : Verdict :=
  .fault ⟨.portOff, p.pointer, p.addressOf role, role, hops⟩

/-- The retargets of a stop at a page crossing, SRC before DST (R85). -/
def crossPages (s : State) (l : LaneId) (r : RecordCopy) (src dst : BeatCursor) : State :=
  let p := (s.lane l).progress
  let s := if crossed src r.srcFixed p.sourcePosition then retarget s l .src p.sourcePosition.page else s
  if crossed dst r.dstFixed p.destinationPosition then retarget s l .dst p.destinationPosition.page else s

/-- The results of a TRANSFER beat that ended with a stop (R84 to R88, R153). A FIFO condition is tested again here. -/
def transferResult (s : State) (l : LaneId) (r : RecordCopy) (src dst : BeatCursor) (stop : Stop) : State × Verdict :=
  let p := (s.lane l).progress
  match stop with
  | .finish => finishMove s l r
  | .burst => (s, .goOn)
  | .crossing => (crossPages s l r src dst, .goOn)
  | .portOff role => (s, portOffFault p role 0)
  | .portEmpty q =>
    if !(s.port q).rxEnable then (s, portOffFault p .src p.hopCount)
    else if (s.port q).rxFifo = [] then (s, .run ⟨false, true, false⟩ (some ⟨q, .rx⟩))
    else (s, .goOn)
  | .portFull q =>
    if !(s.port q).txEnable then (s, portOffFault p .dst p.hopCount)
    else if Config.fifoWords ≤ (s.port q).txFifo.length then (s, .run ⟨false, true, false⟩ (some ⟨q, .tx⟩))
    else (s, .goOn)
  | .range role => (s, .fault ⟨.range, p.pointer, Config.lastAddress, role, 0⟩)

/-- The results of a FINISH beat: the retry of the pending post and the rest of the record's finish (R89). -/
def finishResult (s : State) (l : LaneId) (r : RecordCopy) (pp : PendingPost) : State × Verdict :=
  match push s l pp.kind pp.tag with
  | none => (s, .onQueue)
  | some s =>
    let s := s.updLane l fun x => { x with pendingPost := none }
    match r.kind with
    | some .move => completeMove s l r
    | some .stop => (s, .idle)
    | _ => completeAdvance s l

/-- The results of a beat whose word accesses have all been made, on the lane context that has taken the beat's progress; a
beat that holds no record or no pending post where its phase has one changes nothing (log 23). -/
def beatResult (s : State) (l : LaneId) (work : BeatWork) : State × Verdict :=
  match work, (s.lane l).progress.current with
  | .load _ _, some r => loadResult s l r
  | .dispatch, some r => dispatchRecord s l r
  | .resolve _ (some cell), some r => resolveResult s l r cell
  | .transfer src dst _ _ (some stop), some r => transferResult s l r src dst stop
  | .finish, some r =>
    match (s.lane l).pendingPost with
    | some pp => finishResult s l r pp
    | none => (s, .goOn)
  | _, _ => (s, .goOn)

/-! ### BEAT_END -/

/-- Whether a beat's last word access has been made, or its phase has none to make (R70). -/
def BeatWork.over : BeatWork → Bool
  | .load _ words => words.length == 4
  | .dispatch => true
  | .resolve _ cell => cell.isSome
  | .transfer _ _ _ _ stop => stop.isSome
  | .finish => true

/-- The deferred request is taken against the beat's verdict (R34). -/
def takeDeferred (s : State) (l : LaneId) (held : Option Deferred) (step : Bool) (v : Verdict) : State :=
  match held with
  | none => applyVerdict s l step v
  | some .abort => clearLane s l .idle (s.lane l).config
  | some .halt => haltNow (applyVerdict s l step v) l
  | some (.fault cause role) =>
    match v with
    | .fault f => applyVerdict s l step (.fault f)
    | .idle => applyVerdict s l step .idle
    | _ => enterFaulted s l (asyncRecord (s.lane l) cause role)

/-- Whether a beat is a LOAD beat, whose copy the lane takes at the beat end (R73). -/
def BeatWork.isLoad : BeatWork → Bool
  | .load _ _ => true
  | _ => false

/-- The lane context takes the beat's progress, and the copy a LOAD beat has read (R72 step 4, R73, R177). -/
def takeProgress (s : State) (b : Beat) : State :=
  let s := s.updLane b.lane fun x => { x with progress := b.progress }
  if b.work.isLoad then touchCopy s b.lane else s

/-- The counter of beats served increments and the deferred slot is emptied (R72 step 5, R45, R34). -/
def countBeat (s : State) (l : LaneId) : State :=
  s.updLane l fun x => { x with beats := x.beats + 1, deferred := none }

/-- The beat end (R72): the beat's results in their order (push, signals, cursors, lane context), then the counter and the
deferred request. A beat with word accesses left to make does not end. -/
def beatEnd (s : State) : State :=
  match s.beat with
  | some b =>
    if b.work.over then
      let l := b.lane
      let held := (s.lane l).deferred
      let (s, v) := beatResult (takeProgress { s with beat := none } b) l b.work
      takeDeferred (countBeat s l) l held b.step v
    else s
  | none => s

/-- BEAT_END (R72). -/
def execBeatEnd (s : State) : Host.Outcome State Fault Refusal := .next (unlessReset s beatEnd)

end Sys2Proof.Machine
end

