-- ==== Sys2Proof/Machine/SlotWheel.lean ====
section
/-! DEFINITION. The slot wheel: the slot tick (R52 to R58), the timeouts it counts (R126, R127), the slot timer (R51), the three
wheel commands (R62 to R64) and the wheel's writable items (R48, R51, R61). -/

namespace Sys2Proof.Machine

/-- The entries of a table. -/
def Wheel.table (w : Wheel) : Table → Vector ScheduleEntry 32
  | .a => w.tableA
  | .b => w.tableB

/-- The entry the next tick serves: the entry of the active table at the position (R50, R66). -/
def Wheel.nextEntry (w : Wheel) : ScheduleEntry := (w.table w.active).get w.position

/-- The wheel with one entry of a table replaced. -/
def Wheel.setEntry (w : Wheel) (t : Table) (e : Fin 32) (x : ScheduleEntry) : Wheel :=
  match t with
  | .a => { w with tableA := w.tableA.set e.val x e.isLt }
  | .b => { w with tableB := w.tableB.set e.val x e.isLt }

/-- SWAP_PENDING (R50). -/
def Wheel.swapPending (w : Wheel) : Bool := w.select != w.active

/-! ### The choice of a lane -/

/-- The READY lane with the largest credit of at least 1, the lowest-numbered of equals (R55). -/
def creditChoice (s : State) : Option LaneId :=
  allLanes.foldl
    (fun best l =>
      if s.ready l && decide (0 < (s.lane l).credit) then
        match best with
        | none => some l
        | some k => if (s.lane k).credit < (s.lane l).credit then some l else some k
      else best)
    none

/-- The lanes from the one after the rotation pointer upward, wrapping, to the rotation pointer itself (R56). -/
def rotationOrder (pointer : LaneId) : List LaneId :=
  allLanes.map fun k => Fin.ofNat 12 (pointer.val + 1 + k.val)

/-- The first lane in rotation that is READY and spare-eligible (R56). -/
def rotationChoice (s : State) : Option LaneId :=
  (rotationOrder s.wheel.rotation).find? fun l => s.ready l && (s.lane l).config.spare

/-- The spare assignment: first credit, then rotation (R55, R56). -/
def spareAssignment (s : State) : State :=
  match creditChoice s with
  | some l => beginBeat (s.updLane l fun x => { x with credit := x.credit - 1 }) l
  | none =>
    match rotationChoice s with
    | some l => beginBeat { s with wheel := { s.wheel with rotation := l } } l
    | none => s

/-- A BLOCKED lane named by the entry gains a credit, up to 3, and a missed slot (R54). -/
def gainCredit (s : State) (l : LaneId) : State :=
  if (s.lane l).state = .blocked then
    s.updLane l fun x => { x with credit := min 3 (x.credit + 1), missed := satInc x.missed }
  else s

/-- An overrun (R52). -/
def overrun (s : State) : State :=
  ({ s with wheel := { s.wheel with overruns := satInc s.wheel.overruns } }).setInt .overrun

/-- The decision of a slot: overrun, own slot or spare assignment (R52 to R56). -/
def decideSlot (s : State) : State :=
  if s.beat.isSome then overrun s
  else match s.wheel.nextEntry.named with
    | some l => if s.ready l then beginBeat s l else spareAssignment (gainCredit s l)
    | none => spareAssignment s

/-! ### Advance and timeouts -/

/-- The advance of the wheel past an entry, with the wrap and the swap (R57). A new slot begins and the timer takes
SLOT_PERIOD (R51). -/
def advanceWheel (s : State) (endFlag : Bool) : State :=
  let w : Wheel :=
    { s.wheel with
      slotCount := s.wheel.slotCount + 1, timer := some ⟨s.wheel.period.toNat, 0⟩ }
  if endFlag || s.wheel.position == 31 then
    let swapped : State := { s with wheel := { w with active := w.select, position := 0 } }
    if w.swapPending then swapped.setInt .swap else swapped
  else { s with wheel := { w with position := w.position + 1 } }

/-- A wait of a lane ends by timeout (R127): the lane leaves WAITING, a TIMEOUT entry is pushed if the wait asks for one, and
the WAIT completes, or takes a pending post if the queue is full. -/
def takeTimeout (s : State) (l : LaneId) (w : Wait) : State :=
  if w.postOnTimeout then
    match push s l .timeout w.tag with
    | some s => completeWait s l
    | none =>
      let s := s.updLane l fun x =>
        { x with wait := none, pendingPost := some ⟨.timeout, w.tag⟩, phase := .finish }
      settle s l ⟨false, false, true⟩
  else completeWait s l

/-- The counted wait of a WAITING lane, if it has one: a wait with timeout left 0 has no timeout (R126). -/
def countedWait (x : Lane) : Option Wait :=
  match x.state, x.wait with
  | .waiting, some w => if w.timeoutLeft = 0 then none else some w
  | _, _ => none

/-- One lane takes the count of a slot tick (R126). -/
def countTimeout (s : State) (l : LaneId) : State :=
  match countedWait (s.lane l) with
  | some w =>
    if w.timeoutLeft = 1 then takeTimeout s l w
    else s.updLane l fun x => { x with wait := some { w with timeoutLeft := w.timeoutLeft - 1 } }
  | none => s

/-- The lane table takes a slot tick, in ascending lane number (R58, R126, R127). -/
def countTimeouts (s : State) : State := allLanes.foldl countTimeout s

/-- A slot tick (R52 to R58). It comes only while the wheel is RUNNING (R51; log 2). -/
def slotTick (s : State) : State :=
  if s.wheel.running then countTimeouts (advanceWheel (decideSlot s) s.wheel.nextEntry.endFlag) else s

/-- SLOT_TICK (R57). -/
def execSlotTick (s : State) : Host.Outcome State Fault Refusal := .next (unlessReset s slotTick)

/-- The timeout of one lane: the slot tick that takes the last count of its wait (R126, R127; log 6). A lane whose wait is not
at its last count meets no timeout (log 2). -/
def waitTimeout (s : State) (l : LaneId) : State :=
  match countedWait (s.lane l) with
  | some w => if w.timeoutLeft == 1 then slotTick s else s
  | none => s

/-- WAIT_TIMEOUT (R126, R127). -/
def execWaitTimeout (lane : LaneId) (s : State) : Host.Outcome State Fault Refusal :=
  .next (unlessReset s fun s => waitTimeout s lane)

/-- One timebase tick (R51): a counting slot timer counts it, and expires when its length has passed. This is what the part
does while no command waits (log 13). -/
def timebaseTick (s : State) : State :=
  match s.wheel.timer with
  | some t =>
    if t.length ≤ t.elapsed + 1 then slotTick s
    else { s with wheel := { s.wheel with timer := some { t with elapsed := t.elapsed + 1 } } }
  | none => s

/-! ### Wheel commands -/

/-- WHEEL_START examined (R62). -/
def startWheel (s : State) : State × CommandResult :=
  if s.clearing then (s, .refusedClearing)
  else if s.wheel.running then (s, .refusedState)
  else
    ({ s with wheel := { s.wheel with running := true, timer := some ⟨s.wheel.period.toNat, 0⟩ } }, .accepted)

/-- WHEEL_STOP examined (R63). -/
def stopWheel (s : State) : State × CommandResult :=
  if s.wheel.running then ({ s with wheel := { s.wheel with running := false, timer := none } }, .accepted)
  else (s, .refusedState)

/-- WHEEL_REWIND examined (R64). -/
def rewindWheel (s : State) : State × CommandResult :=
  if s.wheel.running then (s, .refusedState)
  else ({ s with wheel := { s.wheel with active := s.wheel.select, position := 0 } }, .accepted)

/-! ### Writable items of the wheel -/

/-- A host write of a schedule entry (R48). -/
def writeScheduleEntry (s : State) (t : Table) (e : Fin 32) (v : Half) : State :=
  let x := ScheduleEntry.ofHalf v
  if t = s.wheel.active then s.refuse .activeTable (scheduleOffset t e)
  else if !x.vacant && (laneOfField x.lane).isNone then s.refuse .badLane (scheduleOffset t e)
  else { s with wheel := s.wheel.setEntry t e x }

/-- SCHEDULE_ENTRY_WRITE (R48). -/
def execScheduleEntryWrite (table : Table) (entry : Fin 32) (value : Half) (s : State) :
    Host.Outcome State Fault Refusal :=
  .next (unlessReset s fun s => writeScheduleEntry s table entry value)

/-- A host write of SLOT_PERIOD (R51): the slot being timed keeps its length. -/
def writeSlotPeriod (s : State) (v : Half) : State :=
  if v.toNat < 8 then s.refuse .periodLow 0x044 else { s with wheel := { s.wheel with period := v } }

/-- SLOT_PERIOD_WRITE (R51). -/
def execSlotPeriodWrite (value : Half) (s : State) : Host.Outcome State Fault Refusal :=
  .next (unlessReset s fun s => writeSlotPeriod s value)

/-- The table a TABLE_SELECT value names: bit 0 clear for A, set for B. -/
def tableOf (v : Half) : Table := if v.getLsbD 0 then .b else .a

/-- A host write of TABLE_SELECT (R61). -/
def writeTableSelect (s : State) (v : Half) : State := { s with wheel := { s.wheel with select := tableOf v } }

/-- TABLE_SELECT_WRITE (R61). -/
def execTableSelectWrite (value : Half) (s : State) : Host.Outcome State Fault Refusal :=
  .next (unlessReset s fun s => writeTableSelect s value)

end Sys2Proof.Machine
end

