-- ==== Sys2Proof/Machine/Lookups.lean ====
section
/-! DEFINITION. The map unit: lookup start (R108), lookup completion with its checks (R109 to R111), the commit of a map entry
and its shootdown (R103, R112 to R114), and the meanings of LOOKUP_START and LOOKUP_COMPLETION. -/

namespace Sys2Proof.Machine

/-- A page map entry. -/
def State.mapEntry (s : State) (page : BitVec 7) : MapEntry := s.map.entries.get page.toFin

/-! ### Lookup start -/

/-- The cursor the map unit chooses: the oldest of the lane the wheel's next entry names, else the oldest (R108). -/
def chooseCursor (s : State) : Option (LaneId × Role) :=
  match s.wheel.nextEntry.named with
  | some l =>
    match s.map.queue.find? fun q => q.1 == l with
    | some q => some q
    | none => s.map.queue.head?
  | none => s.map.queue.head?

/-- A lookup starts if the map unit is free and the queue holds a cursor (R108). -/
def lookupStart (s : State) : State :=
  match s.map.lookup, chooseCursor s with
  | none, some (l, r) =>
    let page := ((s.lane l).cursor r).page
    let s := s.updLane l fun x => x.setCursor r ⟨page, .inFlight⟩
    { s with map := { s.map with
        queue := s.map.queue.filter fun q => q != (l, r), lookup := some ⟨l, r, page, .live⟩ } }
  | _, _ => s

/-- LOOKUP_START (R108). -/
def execLookupStart (s : State) : Host.Outcome State Fault Refusal := .next (unlessReset s lookupStart)

/-! ### Lookup completion -/

/-- The right a role needs of a memory page (R109). -/
def MapEntry.grants (e : MapEntry) : Role → Bool
  | .dst => e.write
  | _ => e.read

/-- The checks of a live lookup, in their order (R109): the cause of the first that fails. -/
def MapEntry.check (e : MapEntry) (l : LaneId) (r : Role) : Option FaultCause :=
  if !e.valid then some .unmapped
  else if !e.admits l then some .denied
  else match e.kind with
    | .memory => if e.grants r then none else some .noRight
    | .portRx => if r = .src then none else some .targetKind
    | .portTx => if r = .dst then none else some .targetKind

/-- The translation an entry gives (R104). -/
def MapEntry.translation (e : MapEntry) : Translation :=
  match e.kind with
  | .memory => .memory e.page e.read e.write
  | .portRx => .port e.port .rx
  | .portTx => .port e.port .tx

/-- The lane takes a cursor that has become MAPPED: MAP is removed when every cursor its phase needs is MAPPED
(R110, R25, R38). -/
def takeMapping (s : State) (l : LaneId) : State :=
  if holdsReason (s.lane l) Reasons.map && (s.lane l).neededMapped then
    removeReason s l fun h => { h with map := false }
  else s

/-- A live lookup that fails a check (R111): an asynchronous fault; where it is deferred, the failed cursor alone becomes
UNSET at the completion. -/
def failLookup (s : State) (l : LaneId) (r : Role) (cause : FaultCause) : State :=
  let deferred := s.ownBeat l && (s.lane l).state == .active
  let s := asyncFault s l cause r
  if deferred then release s l r else s

/-- The completion of the lookup in progress (R109 to R111). -/
def lookupCompletion (s : State) : State :=
  match s.map.lookup with
  | none => s
  | some k =>
    let free : State := { s with map := { s.map with lookup := none } }
    match k.disposition with
    | .abandoned => free
    | .stale => free.enqueue k.lane k.role ((s.lane k.lane).cursor k.role).page
    | .live =>
      let e := s.mapEntry k.page
      match e.check k.lane k.role with
      | none =>
        takeMapping (free.updLane k.lane fun x => x.setCursor k.role ⟨k.page, .mapped e.translation⟩) k.lane
      | some cause => failLookup free k.lane k.role cause

/-- LOOKUP_COMPLETION (R109). -/
def execLookupCompletion (s : State) : Host.Outcome State Fault Refusal := .next (unlessReset s lookupCompletion)

/-! ### Shootdown -/

/-- A shootdown of a page marks the lookup in progress stale if it is for the page, or if the cursor it is for is IN_FLIGHT
with that logical page (R113). -/
def staleOnShootdown (s : State) (page : BitVec 7) : State :=
  match s.map.lookup with
  | some k =>
    let c := (s.lane k.lane).cursor k.role
    if k.page = page ∨ (c.status = .inFlight ∧ c.page = page) then s.markStale else s
  | none => s

/-- The lane takes a cursor that has left MAPPED (R25, R114). -/
def loseMapping (s : State) (l : LaneId) : State :=
  let x := s.lane l
  if x.neededMapped then s
  else match x.state with
    | .active => if s.ownBeat l then s else settle s l .empty
    | .blocked => s.updLane l fun x => { x with reasons := { x.reasons with map := true } }
    | _ => s

/-- The shootdown of one cursor: re-pended if it is MAPPED on the page (R112). -/
def shootCursor (page : BitVec 7) (s : State) (l : LaneId) (r : Role) : State :=
  let c := (s.lane l).cursor r
  if c.isMapped && c.page == page then loseMapping (s.enqueue l r page) l else s

/-- The shootdown of a page: every cursor MAPPED on it, by ascending lane and in role order (R112 to R114). -/
def shootdown (s : State) (page : BitVec 7) : State :=
  allLanes.foldl (fun s l => allRoles.foldl (fun s r => shootCursor page s l r) s) (staleOnShootdown s page)

/-- A committed write of a page map entry (R103): refused with BAD_TARGET, or taken with its shootdown. The answer says
whether the entry took it. -/
def commitMapEntry (s : State) (page : BitVec 7) (w : Word) : Option State :=
  match MapEntry.ofWord w with
  | some e =>
    some (shootdown { s with map := { s.map with entries := s.map.entries.set page.toNat e page.isLt } } page)
  | none => none

end Sys2Proof.Machine
end

