-- ==== Sys2Proof/Machine/StreamPorts.lean ====
section
/-! DEFINITION. The stream ports: frames and bits (R144 to R147), watermarks and lane releases (R154 to R156), configuration
with enables and disables (R149 to R152), the error counters and flags (R157), and their commands' meanings. -/

namespace Sys2Proof.Machine

/-- SDO: the bit of the shift word a port sends in the present SCK period, low between frames (R144). -/
def Port.sdo (x : Port) : Bool := x.inFrame && x.shiftWord.getLsbD (31 - x.bits)

/-- A signal from a four-bit field. -/
def signalOfField (f : BitVec 4) : SignalId := f.toFin

/-- A frame event releases every lane whose port wait names the direction (R156). -/
def releaseLanes (s : State) (p : PortId) (dir : Direction) : State :=
  allLanes.foldl
    (fun s l =>
      if (s.lane l).portWait = some ⟨p, dir⟩ then
        removeReason (s.updLane l fun x => { x with portWait := none }) l fun h => { h with port := false }
      else s)
    s

/-- An occurrence of a frame error: counted and flagged if a direction is enabled (R147). -/
def frameError (s : State) (p : PortId) : State :=
  if (s.port p).rxEnable || (s.port p).txEnable then
    (s.updPort p fun x => { x with frameErrors := satInc x.frameErrors, frameErrorFlag := true }).setInt .port
  else s

/-- The transmit side of a frame start (R145). -/
def frameStartTransmit (s : State) (p : PortId) : State :=
  let x := s.port p
  if !x.txEnable then s.updPort p fun x => { x with shiftWord := 0 }
  else match x.txFifo with
    | w :: rest =>
      let s := s.updPort p fun x => { x with txFifo := rest, shiftWord := w }
      let s := if rest.length = x.txMark.toNat && x.txSignalEnable then setSignal s (signalOfField x.txSignal) else s
      releaseLanes s p .tx
    | [] =>
      (s.updPort p fun x =>
        { x with shiftWord := x.idleWord, underruns := satInc x.underruns, underrunFlag := true }).setInt .port

/-- A frame start, after the frame error of a strobe that breaks a frame (R145, R147). -/
def frameStart (s : State) (p : PortId) : State :=
  let s := if (s.port p).inFrame then frameError s p else s
  let s := s.updPort p fun x => { x with inFrame := true, bits := 0, received := 0, capture := x.rxEnable }
  frameStartTransmit s p

/-- FRAME_START (R145). -/
def execFrameStart (port : PortId) (s : State) : Host.Outcome State Fault Refusal :=
  .next (unlessReset s fun s => frameStart s port)

/-- The bit on SDI fills the received word, from bit 31 down (R144). -/
def Port.takeBit (x : Port) (sdi : Bool) : Port :=
  { x with
    received := if sdi then x.received ||| BitVec.twoPow 32 (31 - x.bits) else x.received
    bits := x.bits + 1 }

/-- The completed received word is offered to the receive FIFO (R146). -/
def offerReceived (s : State) (p : PortId) (w : Word) : State :=
  let x := s.port p
  if !x.capture then s
  else if Config.fifoWords ≤ x.rxFifo.length then
    (s.updPort p fun x => { x with overruns := satInc x.overruns, overrunFlag := true }).setInt .port
  else
    let s := s.updPort p fun x => { x with rxFifo := x.rxFifo ++ [w] }
    let s :=
      if x.rxFifo.length + 1 = x.rxMarkField.toNat + 1 && x.rxSignalEnable then
        setSignal s (signalOfField x.rxSignal)
      else s
    releaseLanes s p .rx

/-- The 32nd SCK period of a frame: the last bit, the return to BETWEEN and the offer of the word (R146; log 22). -/
def frameEnd (s : State) (p : PortId) (sdi : Bool) : State :=
  let x := s.port p
  if x.inFrame && x.bits == 31 then
    let w := (x.takeBit sdi).received
    offerReceived (s.updPort p fun x => { x with inFrame := false, bits := 0, received := w }) p w
  else s

/-- FRAME_END (R146). -/
def execFrameEnd (port : PortId) (sdi : Bool) (s : State) : Host.Outcome State Fault Refusal :=
  .next (unlessReset s fun s => frameEnd s port sdi)

/-- An SCK period (R144): ignored in BETWEEN; the 32nd of a frame is its frame end. -/
def sckPeriod (s : State) (p : PortId) (sdi : Bool) : State :=
  let x := s.port p
  if !x.inFrame then s
  else if x.bits < 31 then s.updPort p fun x => x.takeBit sdi
  else frameEnd s p sdi

/-- SCK_PERIOD (R144). -/
def execSckPeriod (port : PortId) (sdi : Bool) (s : State) : Host.Outcome State Fault Refusal :=
  .next (unlessReset s fun s => sckPeriod s port sdi)

/-! ### Configuration -/

/-- A word a beat holds for a transmit direction that is disabled will not be pushed (R83; log 28). -/
def discardHeld (s : State) (p : PortId) : State :=
  match s.beat with
  | some b =>
    match b.work with
    | .transfer src ⟨page, .port q d⟩ moved (some h) stop =>
      if q = p then
        { s with beat := some { b with
            work := .transfer src ⟨page, .port q d⟩ moved (some { h with discard := true }) stop } }
      else s
    | _ => s
  | none => s

/-- Every lane whose port wait names a disabled direction is faulted PORT_OFF (R152). -/
def faultWaiters (s : State) (p : PortId) (dir : Direction) (role : Role) : State :=
  allLanes.foldl
    (fun s l => if (s.lane l).portWait = some ⟨p, dir⟩ then asyncFault s l .portOff role else s) s

/-- A disable of a receive direction (R152). -/
def disableRx (s : State) (p : PortId) : State :=
  faultWaiters (s.updPort p fun x => { x with rxFifo := [], capture := false }) p .rx .src

/-- A disable of a transmit direction (R152): the rest of a frame in progress sends zeros. DESIGN CHOICE (unsafe): so too when it
comes together with the frame start and is taken after it, where the end of R152 says that the popped word is sent (log 32). -/
def disableTx (s : State) (p : PortId) : State :=
  faultWaiters (discardHeld (s.updPort p fun x => { x with txFifo := [], shiftWord := 0 }) p) p .tx .dst

/-- A host write of PORT_CONFIG (R149, R151, R152): the fields are taken as written, and each enable that changes from set to
clear is a disable. -/
def writePortConfig (s : State) (p : PortId) (v : Half) : State :=
  let old := s.port p
  let s := s.updPort p fun x =>
    { x with
      rxEnable := v.getLsbD 0, txEnable := v.getLsbD 1, rxSignalEnable := v.getLsbD 4
      txSignalEnable := v.getLsbD 5, rxSignal := v.extractLsb' 8 4, txSignal := v.extractLsb' 12 4 }
  let s := if old.rxEnable && !v.getLsbD 0 then disableRx s p else s
  if old.txEnable && !v.getLsbD 1 then disableTx s p else s

/-- PORT_RX_ENABLE (R151). -/
def execPortRxEnable (port : PortId) (value : Half) (s : State) : Host.Outcome State Fault Refusal :=
  .next (unlessReset s fun s => writePortConfig s port (value ||| 1))

/-- PORT_TX_ENABLE (R151). -/
def execPortTxEnable (port : PortId) (value : Half) (s : State) : Host.Outcome State Fault Refusal :=
  .next (unlessReset s fun s => writePortConfig s port (value ||| 2))

/-- PORT_RX_DISABLE (R152). -/
def execPortRxDisable (port : PortId) (value : Half) (s : State) : Host.Outcome State Fault Refusal :=
  .next (unlessReset s fun s => writePortConfig s port (value &&& 0xFFFE))

/-- PORT_TX_DISABLE (R152). -/
def execPortTxDisable (port : PortId) (value : Half) (s : State) : Host.Outcome State Fault Refusal :=
  .next (unlessReset s fun s => writePortConfig s port (value &&& 0xFFFD))

/-- A host write of PORT_MARKS (R149). -/
def writePortMarks (s : State) (p : PortId) (v : Half) : State :=
  s.updPort p fun x => { x with rxMarkField := v.extractLsb' 0 5, txMark := v.extractLsb' 8 5 }

/-- A host write of PORT_STATUS (R157): each flag written as 1 clears. -/
def writePortStatus (s : State) (p : PortId) (v : Half) : State :=
  s.updPort p fun x =>
    { x with
      overrunFlag := x.overrunFlag && !v.getLsbD 0, underrunFlag := x.underrunFlag && !v.getLsbD 1
      frameErrorFlag := x.frameErrorFlag && !v.getLsbD 2 }

/-- PORT_STATUS_WRITE (R157). -/
def execPortStatusWrite (port : PortId) (value : Half) (s : State) : Host.Outcome State Fault Refusal :=
  .next (unlessReset s fun s => writePortStatus s port value)

/-- A host write of a port error counter, which sets it to 0 (R157). -/
def writePortCounter (s : State) (p : PortId) (c : PortCounter) : State :=
  s.updPort p fun x =>
    match c with
    | .overruns => { x with overruns := 0 }
    | .underruns => { x with underruns := 0 }
    | .frameErrors => { x with frameErrors := 0 }

/-- PORT_COUNTER_WRITE (R157): any value. -/
def execPortCounterWrite (port : PortId) (counter : PortCounter) (_value : Half) (s : State) :
    Host.Outcome State Fault Refusal :=
  .next (unlessReset s fun s => writePortCounter s port counter)

/-- A port after soft reset (R160): directions disabled, FIFOs empty, counters and flags clear; the frame timing goes on with
the capture cleared and zeros sent. -/
def Port.softReset (x : Port) : Port :=
  { x with
    rxEnable := false, txEnable := false, rxFifo := [], txFifo := [], overruns := 0, underruns := 0
    frameErrors := 0, overrunFlag := false, underrunFlag := false, frameErrorFlag := false
    shiftWord := 0, capture := false }

end Sys2Proof.Machine
end

