-- ==== Sys2Proof/Machine/LaneCommands.lean ====
section
/-! DEFINITION. The six lane commands (R26 to R32) and the writes of lane fields (R39, R40, R44). -/

namespace Sys2Proof.Machine

/-- The result of a lane command is placed in LANE_RESULT (R26). -/
def setLaneResult (s : State) (r : LaneResult) : State := { s with window := { s.window with laneResult := r } }

/-- A write of LANE_COMMAND arrives (R26): lane 12 to 15 is refused by the bus window with BAD_LANE; else the command is
examined and its result placed. -/
def laneCommand (s : State) (lane : BitVec 4) (command : State → LaneId → State × LaneResult) : State :=
  match laneOfField lane with
  | some l => setLaneResult (command s l).1 (command s l).2
  | none => s.refuse .badLane 0x060

/-- ENABLE examined (R27). -/
def enableLane (s : State) (l : LaneId) : State × LaneResult :=
  match (s.lane l).state with
  | .off => (s.updLane l fun x => { x with state := .idle }, .accepted)
  | _ => (s, .refusedState)

/-- DISABLE examined (R28). -/
def disableLane (s : State) (l : LaneId) : State × LaneResult :=
  match (s.lane l).state with
  | .idle => (clearLane s l .off .default, .accepted)
  | .halted => (clearLane s l .off .default, .accepted)
  | .faulted => (clearLane s l .off .default, .accepted)
  | _ => (s, .refusedState)

/-- Whether a halfword is a logical address that is a multiple of 4 (R29, R39). -/
def isRecordAddress (v : Half) : Bool := !v.getLsbD 15 && v.extractLsb' 0 2 == 0

/-- START examined (R29). -/
def startLane (s : State) (l : LaneId) : State × LaneResult :=
  match (s.lane l).state with
  | .idle =>
    let argument := s.window.laneArgument
    if s.clearing then (s, .refusedClearing)
    else if !isRecordAddress argument then (s, .refusedArgument)
    else
      let head : LAddr := argument.setWidth 15
      let s := s.updLane l fun x =>
        { x with phase := .load, progress := { Progress.cleared head with current := x.progress.current } }
      let s := retarget s l .walk head.page
      (s.updLane l fun x => { x with state := .blocked, reasons := ⟨true, false, false⟩ }, .accepted)
  | _ => (s, .refusedState)

/-- HALT examined (R30). -/
def haltLane (s : State) (l : LaneId) : State × LaneResult :=
  if (s.lane l).deferred.isSome then (s, .refusedState)
  else match (s.lane l).state with
    | .active =>
      if s.ownBeat l then (s.updLane l fun x => { x with deferred := some .halt }, .accepted)
      else (haltNow s l, .accepted)
    | .blocked => (haltNow s l, .accepted)
    | .waiting => (haltNow s l, .accepted)
    | _ => (s, .refusedState)

/-- The re-evaluation of a resume state (R31). A halted lane that holds no resume state is taken as one that resumes ACTIVE
(log 23). -/
def resumeHalted (s : State) (l : LaneId) : State :=
  let x := s.lane l
  let s := s.updLane l fun x => { x with haltReason := none, resume := none }
  match x.resume, x.wait with
  | some (.blocked held), _ => settle s l { held with map := false }
  | some .waiting, some w =>
    match satisfyWait s w.mask w.consume with
    | some s => completeWait s l
    | none => s.updLane l fun x => { x with state := .waiting }
  | _, _ => settle s l .empty

/-- RESUME examined (R31). -/
def resumeLane (s : State) (l : LaneId) : State × LaneResult :=
  match (s.lane l).state with
  | .halted => (resumeHalted s l, .accepted)
  | _ => (s, .refusedState)

/-- ABORT examined (R32). -/
def abortLane (s : State) (l : LaneId) : State × LaneResult :=
  match (s.lane l).state with
  | .off => (s, .refusedState)
  | .active =>
    if s.ownBeat l then (s.updLane l fun x => { x with deferred := some .abort }, .accepted)
    else (clearLane s l .idle (s.lane l).config, .accepted)
  | _ => (clearLane s l .idle (s.lane l).config, .accepted)

/-- ENABLE (R27). -/
def execEnable (lane : BitVec 4) (s : State) : Host.Outcome State Fault Refusal :=
  .next (unlessReset s fun s => laneCommand s lane enableLane)

/-- DISABLE (R28). -/
def execDisable (lane : BitVec 4) (s : State) : Host.Outcome State Fault Refusal :=
  .next (unlessReset s fun s => laneCommand s lane disableLane)

/-- START (R29). -/
def execStart (lane : BitVec 4) (s : State) : Host.Outcome State Fault Refusal :=
  .next (unlessReset s fun s => laneCommand s lane startLane)

/-- HALT (R30). -/
def execHalt (lane : BitVec 4) (s : State) : Host.Outcome State Fault Refusal :=
  .next (unlessReset s fun s => laneCommand s lane haltLane)

/-- RESUME (R31). -/
def execResume (lane : BitVec 4) (s : State) : Host.Outcome State Fault Refusal :=
  .next (unlessReset s fun s => laneCommand s lane resumeLane)

/-- ABORT (R32). -/
def execAbort (lane : BitVec 4) (s : State) : Host.Outcome State Fault Refusal :=
  .next (unlessReset s fun s => laneCommand s lane abortLane)

/-- The command a code names; a code that names none is answered REFUSED_ARGUMENT (R26, 11.4). -/
def laneCommandOf (code : BitVec 3) : State → LaneId → State × LaneResult :=
  match code.toNat with
  | 1 => enableLane
  | 2 => disableLane
  | 3 => startLane
  | 4 => haltLane
  | 5 => resumeLane
  | 6 => abortLane
  | _ => fun s _ => (s, .refusedArgument)

/-- A host write of LANE_COMMAND with any code (R26). -/
def writeLaneCommand (s : State) (lane : BitVec 4) (code : BitVec 3) : State :=
  laneCommand s lane (laneCommandOf code)

/-- LANE_COMMAND_UNKNOWN (R26). -/
def execLaneCommandUnknown (lane : BitVec 4) (code : BitVec 3) (s : State) : Host.Outcome State Fault Refusal :=
  .next (unlessReset s fun s => writeLaneCommand s lane code)

/-! ### Writable lane fields -/

/-- The redirect of a HALTED lane to a new record (R39). -/
def redirectLane (s : State) (l : LaneId) (pointer : LAddr) : State :=
  let s := dropCopy s l
  let s := release (release (release s l .hop) l .src) l .dst
  let s := s.updLane l fun x =>
    { x with
      phase := .load, progress := .cleared pointer, pendingPost := none, wait := none, repeatRecord := none
      portWait := none, haltReason := some .host, resume := some .active }
  retarget s l .walk pointer.page

/-- A host write of RECORD_POINTER of the selected lane (R39). -/
def writeRecordPointer (s : State) (v : Half) : State :=
  let l := s.window.laneSelect
  match (s.lane l).state with
  | .halted => if isRecordAddress v then redirectLane s l (v.setWidth 15) else s.refuse .badTarget 0x074
  | _ => s.refuse .readOnly 0x074

/-- RECORD_POINTER_WRITE (R39). -/
def execRecordPointerWrite (value : Half) (s : State) : Host.Outcome State Fault Refusal :=
  .next (unlessReset s fun s => writeRecordPointer s value)

/-- The configuration a LANE_CONFIG value spells (11.4). -/
def LaneConfig.ofHalf (v : Half) : LaneConfig := ⟨v.extractLsb' 0 4, v.getLsbD 4, v.getLsbD 5⟩

/-- A host write of LANE_CONFIG of the selected lane, in every state (R40). -/
def writeLaneConfig (s : State) (v : Half) : State :=
  s.updLane s.window.laneSelect fun x => { x with config := .ofHalf v }

/-- LANE_CONFIG_WRITE (R40). -/
def execLaneConfigWrite (value : Half) (s : State) : Host.Outcome State Fault Refusal :=
  .next (unlessReset s fun s => writeLaneConfig s value)

/-- A host write of LANE_SELECT (R44, R177). -/
def writeLaneSelect (s : State) (v : Half) : State :=
  match laneOfField (v.extractLsb' 0 4) with
  | some l => { s with window := { s.window with laneSelect := l, recordIndex := 0 } }
  | none => s.refuse .badLane 0x066

/-- LANE_SELECT_WRITE (R44). -/
def execLaneSelectWrite (value : Half) (s : State) : Host.Outcome State Fault Refusal :=
  .next (unlessReset s fun s => writeLaneSelect s value)

end Sys2Proof.Machine
end

