-- ==== Sys2Proof/Machine/Global.lean ====
section
/-! DEFINITION. The global commands (R168, R62 to R64, R169, R172), the clear pass (R170) and the RESET pin (R171), and the
signal, queue and interrupt writes of the host (R121, R122, R136 to R138, R141, R142). -/

namespace Sys2Proof.Machine

/-! ### Global commands -/

/-- The result of a global command is placed in COMMAND_RESULT (R168). -/
def setCommandResult (s : State) (r : CommandResult) : State :=
  { s with window := { s.window with commandResult := r } }

/-- A write of GLOBAL_COMMAND arrives: the command is examined and its result placed (R168). -/
def globalCommand (s : State) (command : State → State × CommandResult) : State :=
  setCommandResult (command s).1 (command s).2

/-- The wheel after soft reset (R68). -/
def Wheel.softReset (w : Wheel) : Wheel :=
  { w with
    running := false, active := w.select, position := 0, rotation := 11, timer := none, slotCount := 0
    overruns := 0 }

/-- The part after soft reset, but for COMMAND_RESULT (R172): the beat and the lookup in progress are abandoned; exchange
memory, the page map, the tables, SLOT_PERIOD, INT_ENABLE, APERTURE_PAGE and a clear pass in progress are kept. -/
def softResetState (s : State) : State :=
  { s with
    lanes := Vector.replicate 12 .reset, beat := none, wheel := s.wheel.softReset
    map := { s.map with queue := [], lookup := none }, signals := 0, queue := .reset
    ints := { s.ints with status := 0 }
    ports := #v[(s.port 0).softReset, (s.port 1).softReset, (s.port 2).softReset, (s.port 3).softReset]
    window := { Window.reset with aperturePage := s.window.aperturePage, readData := s.window.readData } }

/-- SOFT_RESET examined: accepted in every state (R172). -/
def softReset (s : State) : State × CommandResult := (softResetState s, .accepted)

/-- ERASE examined (R169): a clear pass begins. -/
def eraseMemory (s : State) : State × CommandResult :=
  if s.clearing then (s, .refusedClearing)
  else if s.wheel.running || s.beat.isSome then (s, .refusedState)
  else ({ s with clearing := true }, .accepted)

/-- WHEEL_START (R62). -/
def execWheelStart (s : State) : Host.Outcome State Fault Refusal :=
  .next (unlessReset s fun s => globalCommand s startWheel)

/-- WHEEL_STOP (R63). -/
def execWheelStop (s : State) : Host.Outcome State Fault Refusal :=
  .next (unlessReset s fun s => globalCommand s stopWheel)

/-- WHEEL_REWIND (R64). -/
def execWheelRewind (s : State) : Host.Outcome State Fault Refusal :=
  .next (unlessReset s fun s => globalCommand s rewindWheel)

/-- SOFT_RESET (R172). -/
def execSoftReset (s : State) : Host.Outcome State Fault Refusal :=
  .next (unlessReset s fun s => globalCommand s softReset)

/-- ERASE (R169). -/
def execErase (s : State) : Host.Outcome State Fault Refusal :=
  .next (unlessReset s fun s => globalCommand s eraseMemory)

/-- The command a code names; a code that names none is answered REFUSED_ARGUMENT (R168, 11.7). -/
def globalCommandOf (code : BitVec 4) : State → State × CommandResult :=
  match code.toNat with
  | 1 => startWheel
  | 2 => stopWheel
  | 3 => rewindWheel
  | 4 => softReset
  | 5 => eraseMemory
  | _ => fun s => (s, .refusedArgument)

/-- A host write of GLOBAL_COMMAND with any code (R168). -/
def writeGlobalCommand (s : State) (code : BitVec 4) : State := globalCommand s (globalCommandOf code)

/-- GLOBAL_COMMAND_UNKNOWN (R168). -/
def execGlobalCommandUnknown (code : BitVec 4) (s : State) : Host.Outcome State Fault Refusal :=
  .next (unlessReset s fun s => writeGlobalCommand s code)

/-! ### The clear pass and the RESET pin -/

/-- The end of a clear pass (R170): every word is zero, CLEARING reads 0 and INT CLEAR_DONE is set. With no pass in progress
none ends (log 2). -/
def clearPassEnd (s : State) : State :=
  if s.clearing then ({ s with clearing := false, mem := [] }).setInt .clearDone else s

/-- CLEAR_PASS_END (R170). -/
def execClearPassEnd (s : State) : Host.Outcome State Fault Refusal := .next (unlessReset s clearPassEnd)

/-- The assertion of RESET (R171): all work in progress is abandoned and every piece of state takes its device-reset value.
Exchange memory holds whatever it held until the clear pass; the data of the last read and the commands that wait are not
state of the part. -/
def resetAssert (s : State) : State :=
  { State.reset with
    clearing := false, resetPin := true, mem := s.mem, pending := s.pending
    window := { Window.reset with readData := s.window.readData } }

/-- RESET_ASSERT (R171). -/
def execResetAssert (s : State) : Host.Outcome State Fault Refusal := .next (resetAssert s)

/-- The release of RESET, which begins a clear pass (R171, R170). A RESET that is not asserted is not released (log 2). -/
def resetRelease (s : State) : State :=
  if s.resetPin then { s with resetPin := false, clearing := true } else s

/-- RESET_RELEASE (R171). -/
def execResetRelease (s : State) : Host.Outcome State Fault Refusal := .next (resetRelease s)

/-! ### Signals -/

/-- SIGNAL_SET (R121). -/
def execSignalSet (value : Half) (s : State) : Host.Outcome State Fault Refusal :=
  .next (unlessReset s fun s => setSignals s value)

/-- A host write of SIGNAL_CLEAR (R122): it wakes no lane. -/
def clearSignals (s : State) (v : Half) : State := { s with signals := s.signals &&& ~~~ v }

/-- SIGNAL_CLEAR (R122). -/
def execSignalClear (value : Half) (s : State) : Host.Outcome State Fault Refusal :=
  .next (unlessReset s fun s => clearSignals s value)

/-! ### The completion queue -/

/-- A pop releases every lane that holds QUEUE (R137). -/
def releaseQueue (s : State) : State :=
  allLanes.foldl
    (fun s l =>
      if holdsReason (s.lane l) Reasons.queue then removeReason s l fun h => { h with queue := false } else s)
    s

/-- A host write of QUEUE_POP (R136). -/
def popQueue (s : State) : State :=
  match s.queue.entries with
  | [] => s.refuse .queueEmpty 0x0AE
  | _ :: rest => releaseQueue { s with queue := { s.queue with entries := rest } }

/-- QUEUE_POP (R136): the written value is not used. -/
def execQueuePop (_value : Half) (s : State) : Host.Outcome State Fault Refusal := .next (unlessReset s popQueue)

/-- A host write of QUEUE_THRESHOLD (R138). -/
def writeQueueThreshold (s : State) (v : Half) : State :=
  { s with queue := { s.queue with thresholdField := v.extractLsb' 0 5 } }

/-- QUEUE_THRESHOLD_WRITE (R138). -/
def execQueueThresholdWrite (value : Half) (s : State) : Host.Outcome State Fault Refusal :=
  .next (unlessReset s fun s => writeQueueThreshold s value)

/-! ### Interrupts -/

/-- INT_STATUS_WRITE (R141). -/
def execIntStatusWrite (value : Half) (s : State) : Host.Outcome State Fault Refusal :=
  .next (unlessReset s fun s => writeIntStatus s value)

/-- INT_ENABLE_WRITE (R142). -/
def execIntEnableWrite (value : Half) (s : State) : Host.Outcome State Fault Refusal :=
  .next (unlessReset s fun s => writeIntEnable s value)

end Sys2Proof.Machine
end

