-- ==== Sys2Proof/Machine/BusWindow.lean ====
section
/-! DEFINITION. The bus window: what each item reads (11.1, 11.4 to 11.7), the split latches (R163, R164), the aperture
(R162, R165), the decoding of a host read or write by its offset (R161, R174 to R176), and the commands' meanings. -/

namespace Sys2Proof.Machine

/-! ### Items as they read -/

/-- A Bool as one bit at a bit number of a halfword. -/
def bitAt (b : Bool) (n : Nat) : Half := if b then BitVec.twoPow 16 n else 0

/-- A field placed at a bit number of a halfword. -/
def fieldAt {w : Nat} (v : BitVec w) (n : Nat) : Half := (v.setWidth 16) <<< n

/-- A number as a halfword. -/
def natHalf (n : Nat) : Half := BitVec.ofNat 16 n

/-- The lanes in a state, one bit each (R43). -/
def laneSummary (s : State) (st : LaneState) : Half :=
  allLanes.foldl (fun acc l => acc ||| bitAt ((s.lane l).state == st) l.val) 0

/-- GLOBAL_STATUS (R173). -/
def globalStatus (s : State) : Half :=
  bitAt s.clearing 0 ||| bitAt s.wheel.running 1 ||| bitAt (s.wheel.active == .b) 2 ||| bitAt s.wheel.swapPending 3

/-- LANE_STATE (11.4). -/
def viewLaneState (x : Lane) : Half :=
  fieldAt x.state.code 0 ||| fieldAt x.phase.code 3 ||| bitAt x.reasons.map 6 ||| bitAt x.reasons.port 7 |||
    bitAt x.reasons.queue 8 ||| bitAt (Resume.held x.resume).map 9 ||| bitAt (Resume.held x.resume).port 10 |||
    bitAt (Resume.held x.resume).queue 11 ||| fieldAt (HaltReason.code x.haltReason) 12 |||
    fieldAt (Deferred.code x.deferred) 14

/-- LANE_PARTS (11.4). -/
def viewLaneParts (x : Lane) : Half :=
  bitAt x.progress.current.isSome 0 ||| bitAt x.repeatRecord.isSome 1 ||| bitAt x.pendingPost.isSome 2 |||
    bitAt x.wait.isSome 3 ||| bitAt x.portWait.isSome 4 ||| bitAt x.fault.isSome 5 |||
    fieldAt (Resume.code x.resume) 6 |||
    (match x.portWait with
      | some w => natHalf w.port.val <<< 8 ||| bitAt (w.dir == .tx) 10
      | none => 0) |||
    (match x.wait with
      | some w => bitAt w.consume 11 ||| bitAt w.postOnTimeout 12
      | none => 0) |||
    (match x.pendingPost with
      | some pp => fieldAt pp.kind.code 13
      | none => 0)

/-- LANE_CONFIG (11.4). -/
def viewLaneConfig (x : Lane) : Half :=
  fieldAt x.config.burstField 0 ||| bitAt x.config.step 4 ||| bitAt x.config.spare 5

/-- LANE_PROGRESS (11.4). -/
def viewLaneProgress (x : Lane) : Half :=
  fieldAt x.progress.resolveTarget.code 0 ||| fieldAt (BitVec.ofNat 3 x.progress.hopCount) 2 |||
    fieldAt (BitVec.ofNat 2 x.credit) 5 ||| fieldAt x.walk.status.code 8 ||| fieldAt x.hop.status.code 10 |||
    fieldAt x.src.status.code 12 ||| fieldAt x.dst.status.code 14

/-- PART_TAG: the tag of the wait or of the pending post (11.4). -/
def viewPartTag (x : Lane) : Half :=
  match x.wait, x.pendingPost with
  | some w, _ => w.tag
  | none, some pp => pp.tag
  | none, none => 0

/-- FAULT_INFO (11.4). -/
def viewFaultInfo (x : Lane) : Half :=
  match x.fault with
  | some f => fieldAt f.cause.code 0 ||| fieldAt f.role.code 4 ||| fieldAt (BitVec.ofNat 3 f.hopCount) 6
  | none => 0

/-- The halfword of a record copy at a read index; 0 while the copy is absent (R177). -/
def recordHalf (x : Lane) (index : BitVec 3) : Half :=
  match x.progress.current with
  | some r =>
    let w := r.word (index.toNat / 2)
    if index.getLsbD 0 then w.high else w.low
  | none => 0

/-- PORT_CONFIG (11.6). -/
def viewPortConfig (x : Port) : Half :=
  bitAt x.rxEnable 0 ||| bitAt x.txEnable 1 ||| bitAt x.rxSignalEnable 4 ||| bitAt x.txSignalEnable 5 |||
    fieldAt x.rxSignal 8 ||| fieldAt x.txSignal 12

/-- PORT_STATUS (R158, 11.6). -/
def viewPortStatus (x : Port) : Half :=
  bitAt x.overrunFlag 0 ||| bitAt x.underrunFlag 1 ||| bitAt x.frameErrorFlag 2 |||
    natHalf x.rxFifo.length <<< 4 ||| natHalf x.txFifo.length <<< 10

/-- A port error counter. -/
def Port.counter (x : Port) : PortCounter → Half
  | .overruns => x.overruns
  | .underruns => x.underruns
  | .frameErrors => x.frameErrors

/-- QUEUE_HEAD_ID (11.5). -/
def viewHeadId (s : State) : Half :=
  match s.queue.entries with
  | e :: _ => fieldAt e.sequence 0 ||| natHalf e.lane.val <<< 8 ||| fieldAt e.kind.code 12
  | [] => 0

/-- An item of the oldest entry; 0 while the queue holds none (R135). -/
def headItem (s : State) (f : Entry → Half) : Half :=
  match s.queue.entries with
  | e :: _ => f e
  | [] => 0

/-- The value of a 32-bit item as it stands (R161). -/
def item32Value (s : State) : Item32 → Word
  | .slotCount => s.wheel.slotCount
  | .beats => (s.lane s.window.laneSelect).beats
  | .idleWord p => (s.port p).idleWord
  | .mapEntry p => (s.mapEntry p).toWord
  | .aperture w => s.readMem s.window.aperturePage w

/-- What an item reads, without what a read may do to the latches or the read index (R174; log 16). -/
def itemRead (s : State) (i : Item) : Half :=
  let x := s.lane s.window.laneSelect
  match i with
  | .vendorCode => Config.vendorCode
  | .partCode => Config.partCode
  | .revision => Config.revision
  | .globalStatus => globalStatus s
  | .globalCommand => 0
  | .commandResult => s.window.commandResult.code
  | .aperturePage => fieldAt s.window.aperturePage 0
  | .intStatus => fieldAt s.ints.status 0
  | .intEnable => fieldAt s.ints.enable 0
  | .refusalCause => fieldAt (BusCause.code s.window.capture.cause) 0
  | .refusalOffset => fieldAt s.window.capture.offset 0
  | .refusalCount => fieldAt s.window.capture.count 0
  | .signals => s.signals
  | .signalSet => 0
  | .signalClear => 0
  | .wheelPosition => natHalf s.wheel.position.val
  | .tableSelect => bitAt (s.wheel.select == .b) 0
  | .slotPeriod => s.wheel.period
  | .wheelRotation => natHalf s.wheel.rotation.val
  | .overrunCount => s.wheel.overruns
  | .laneCommand => 0
  | .laneArgument => s.window.laneArgument
  | .laneResult => s.window.laneResult.code
  | .laneSelect => natHalf s.window.laneSelect.val
  | .laneFaultSummary => laneSummary s .faulted
  | .laneHaltSummary => laneSummary s .halted
  | .laneState => viewLaneState x
  | .laneParts => viewLaneParts x
  | .recordPointer => fieldAt x.progress.pointer 0
  | .laneConfig => viewLaneConfig x
  | .laneProgress => viewLaneProgress x
  | .resolvedSource => fieldAt x.progress.resolvedSource 0
  | .resolvedDestination => fieldAt x.progress.resolvedDestination 0
  | .remaining => natHalf x.progress.remaining
  | .sourcePosition => fieldAt x.progress.sourcePosition 0
  | .destinationPosition => fieldAt x.progress.destinationPosition 0
  | .repeatAddress => match x.repeatRecord with
    | some rr => fieldAt rr.address 0
    | none => 0
  | .repeatRemaining => match x.repeatRecord with
    | some rr => natHalf rr.remaining
    | none => 0
  | .waitMask => match x.wait with
    | some w => w.mask
    | none => 0
  | .waitTimeout => match x.wait with
    | some w => natHalf w.timeoutLeft
    | none => 0
  | .partTag => viewPartTag x
  | .faultInfo => viewFaultInfo x
  | .faultRecordAddress => match x.fault with
    | some f => fieldAt f.recordAddress 0
    | none => 0
  | .faultOffending => match x.fault with
    | some f => fieldAt f.offending 0
    | none => 0
  | .missedSlots => x.missed
  | .cursorPagesA => fieldAt x.walk.page 0 ||| fieldAt x.hop.page 8
  | .cursorPagesB => fieldAt x.src.page 0 ||| fieldAt x.dst.page 8
  | .recordWords => recordHalf x s.window.recordIndex
  | .queueHeadId => viewHeadId s
  | .queueHeadTag => headItem s Entry.tag
  | .queueHeadAddress => headItem s fun e => fieldAt e.recordAddress 0
  | .queueHeadStamp => headItem s Entry.stamp
  | .queueLevel => natHalf s.queue.entries.length
  | .queueNextSequence => fieldAt s.queue.nextSequence 0
  | .queueThreshold => fieldAt s.queue.thresholdField 0
  | .queuePop => 0
  | .portConfig p => viewPortConfig (s.port p)
  | .portMarks p => fieldAt (s.port p).rxMarkField 0 ||| fieldAt (s.port p).txMark 8
  | .portStatus p => viewPortStatus (s.port p)
  | .portCounter p c => (s.port p).counter c
  | .scheduleEntry t e => ((s.wheel.table t).get e).toHalf
  | .split i .low => (item32Value s i).low
  | .split i .high => (item32Value s i).high
  | .unused => 0

/-! ### Host reads -/

/-- A read returns a value on the data lines (log 9). -/
def returnData (s : State) (v : Half) : State := { s with window := { s.window with readData := v } }

/-- A host read: while RESET is asserted it returns 0 and does nothing (R171). -/
def hostReading (s : State) (f : State → State) : State := if s.resetPin then returnData s 0 else f s

/-- The tag of a 32-bit item as it is named now (R163). -/
def item32Tag (s : State) : Item32 → LatchTag
  | .slotCount => .slotCount
  | .beats => .beats s.window.laneSelect
  | .idleWord p => .idleWord p
  | .mapEntry p => .mapEntry p
  | .aperture w => .physical s.window.aperturePage w

/-- Whether an item is an aperture word. -/
def item32IsAperture : Item32 → Bool
  | .aperture _ => true
  | _ => false

/-- Whether an access to an item is refused because a clear pass is in progress (R165). -/
def refusedClearing (s : State) (item : Item32) : Bool := s.clearing && item32IsAperture item

/-- A refused read returns 0 (R166). -/
def refuseRead (s : State) (cause : BusCause) (offset : WindowOffset) : State :=
  returnData (s.refuse cause offset) 0

/-- A read of the low half of a 32-bit item (R163). -/
def splitLowRead (s : State) (item : Item32) : State :=
  if refusedClearing s item then refuseRead s .clearing (item32Offset item .low)
  else
    let w := item32Value s item
    returnData { s with window := { s.window with readLatch := some ⟨w.high, item32Tag s item⟩ } } w.low

/-- The value a read of the high half returns: the latched one if the latch's tag names the item, else the live one (R163). -/
def splitHighValue (s : State) (item : Item32) : Half :=
  match s.window.readLatch with
  | some k => if k.tag = item32Tag s item then k.value else (item32Value s item).high
  | none => (item32Value s item).high

/-- A read of the high half of a 32-bit item (R163). -/
def splitHighRead (s : State) (item : Item32) : State :=
  if refusedClearing s item then refuseRead s .clearing (item32Offset item .high)
  else returnData s (splitHighValue s item)

/-- SPLIT_LOW_READ (R163). -/
def execSplitLowRead (item : Item32) (s : State) : Host.Outcome State Fault Refusal :=
  .next (hostReading s fun s => splitLowRead s item)

/-- SPLIT_HIGH_READ (R163). -/
def execSplitHighRead (item : Item32) (s : State) : Host.Outcome State Fault Refusal :=
  .next (hostReading s fun s => splitHighRead s item)

/-- A read of RECORD_WORDS (R177): the read index increases by 1, and after 7 returns to 0. -/
def recordWordsRead (s : State) : State :=
  let v := recordHalf (s.lane s.window.laneSelect) s.window.recordIndex
  returnData { s with window := { s.window with recordIndex := s.window.recordIndex + 1 } } v

/-- RECORD_WORDS_READ (R177). -/
def execRecordWordsRead (s : State) : Host.Outcome State Fault Refusal := .next (hostReading s recordWordsRead)

/-- A host read of an item (R174). -/
def readItem (s : State) (i : Item) : State :=
  match i with
  | .split item .low => splitLowRead s item
  | .split item .high => splitHighRead s item
  | .recordWords => recordWordsRead s
  | i => returnData s (itemRead s i)

/-! ### Split writes -/

/-- Whether a 32-bit item is read only (R164). -/
def item32ReadOnly : Item32 → Bool
  | .slotCount => true
  | .beats => true
  | _ => false

/-- A write of the low half of a 32-bit item (R164). -/
def splitLowWrite (s : State) (item : Item32) (v : Half) : State :=
  if item32ReadOnly item then s.refuse .readOnly (item32Offset item .low)
  else if refusedClearing s item then s.refuse .clearing (item32Offset item .low)
  else { s with window := { s.window with writeLatch := some ⟨v, item32Tag s item⟩ } }

/-- SPLIT_LOW_WRITE (R164). -/
def execSplitLowWrite (item : Item32) (value : Half) (s : State) : Host.Outcome State Fault Refusal :=
  .next (unlessReset s fun s => splitLowWrite s item value)

/-- A 32-bit write offered to an item: what the item makes of it, nothing if it refuses it with BAD_TARGET (R164, R103). -/
def commitItem (s : State) (item : Item32) (w : Word) : Option State :=
  match item with
  | .mapEntry p => commitMapEntry s p w
  | .idleWord p => some (s.updPort p fun x => { x with idleWord := w })
  | .aperture a => some (s.writeMem s.window.aperturePage a w)
  | .slotCount => none
  | .beats => none

/-- The latched low half that a write of the high half of an item completes, if the latch names the item now (R164). -/
def latchedLow (s : State) (item : Item32) : Option Half :=
  match s.window.writeLatch with
  | some k => if k.tag = item32Tag s item then some k.value else none
  | none => none

/-- A write of the high half of a 32-bit item (R164): a committed write empties the latch, a refused one leaves it loaded. -/
def splitHighWrite (s : State) (item : Item32) (v : Half) : State :=
  if item32ReadOnly item then s.refuse .readOnly (item32Offset item .high)
  else if refusedClearing s item then s.refuse .clearing (item32Offset item .high)
  else match latchedLow s item with
    | some low =>
      match commitItem s item (Word.ofHalves v low) with
      | some s => { s with window := { s.window with writeLatch := none } }
      | none => s.refuse .badTarget (item32Offset item .high)
    | none => s.refuse .splitOrder (item32Offset item .high)

/-- MAP_ENTRY_COMMIT (R103). -/
def execMapEntryCommit (page : BitVec 7) (value : Half) (s : State) : Host.Outcome State Fault Refusal :=
  .next (unlessReset s fun s => splitHighWrite s (.mapEntry page) value)

/-- APERTURE_WORD_COMMIT (R165). -/
def execApertureWordCommit (word : BitVec 8) (value : Half) (s : State) : Host.Outcome State Fault Refusal :=
  .next (unlessReset s fun s => splitHighWrite s (.aperture word) value)

/-- PORT_IDLE_WORD_COMMIT (R149). -/
def execPortIdleWordCommit (port : PortId) (value : Half) (s : State) : Host.Outcome State Fault Refusal :=
  .next (unlessReset s fun s => splitHighWrite s (.idleWord port) value)

/-! ### Host writes by offset -/

/-- A host write of APERTURE_PAGE (R162). -/
def writeAperturePage (s : State) (v : Half) : State :=
  { s with window := { s.window with aperturePage := v.extractLsb' 0 6 } }

/-- APERTURE_PAGE_WRITE (R162). -/
def execAperturePageWrite (value : Half) (s : State) : Host.Outcome State Fault Refusal :=
  .next (unlessReset s fun s => writeAperturePage s value)

/-- A host write of LANE_ARGUMENT: all 16 bits are stored (R175). -/
def writeLaneArgument (s : State) (v : Half) : State := { s with window := { s.window with laneArgument := v } }

/-- A host write of an item at its offset: taken by the item's rule; a read-only item refuses it (R174). -/
def writeItem (s : State) (i : Item) (offset : WindowOffset) (v : Half) : State :=
  match i with
  | .globalCommand => writeGlobalCommand s (v.extractLsb' 0 4)
  | .aperturePage => writeAperturePage s v
  | .intStatus => writeIntStatus s v
  | .intEnable => writeIntEnable s v
  | .signalSet => setSignals s v
  | .signalClear => clearSignals s v
  | .tableSelect => writeTableSelect s v
  | .slotPeriod => writeSlotPeriod s v
  | .laneCommand => writeLaneCommand s (v.extractLsb' 0 4) (v.extractLsb' 8 3)
  | .laneArgument => writeLaneArgument s v
  | .laneSelect => writeLaneSelect s v
  | .recordPointer => writeRecordPointer s v
  | .laneConfig => writeLaneConfig s v
  | .queueThreshold => writeQueueThreshold s v
  | .queuePop => popQueue s
  | .portConfig p => writePortConfig s p v
  | .portMarks p => writePortMarks s p v
  | .portStatus p => writePortStatus s p v
  | .portCounter p c => writePortCounter s p c
  | .scheduleEntry t e => writeScheduleEntry s t e v
  | .split item .low => splitLowWrite s item v
  | .split item .high => splitHighWrite s item v
  | .unused => s
  | _ => s.refuse .readOnly offset

/-- A host access at an offset (R161, R174, R176). -/
def hostAccess (s : State) (offset : WindowOffset) (a : Access) : State :=
  match a with
  | .read => hostReading s fun s => readItem s (itemAt offset)
  | .write v => unlessReset s fun s => writeItem s (itemAt offset) (alignOffset offset) v

/-- REGISTER_WRITE (R174): a write taken under the access type and the rule of the item its offset names. -/
def execRegisterWrite (offset : WindowOffset) (value : Half) (s : State) : Host.Outcome State Fault Refusal :=
  .next (hostAccess s offset (.write value))

/-- UNUSED_OFFSET_ACCESS (R176): at an offset that names no item a read returns 0 and a write is ignored. At any other offset
the access is that item's (log 16). -/
def execUnusedOffsetAccess (offset : WindowOffset) (access : Access) (s : State) : Host.Outcome State Fault Refusal :=
  .next (hostAccess s offset access)

end Sys2Proof.Machine
end

