-- ==== Sys2Proof/Machine/Dispatch.lean ====
section
/-! DEFINITION. The meaning of each command: one arm per row of spec/opcode_table.json, in the table's order. -/

namespace Sys2Proof.Machine

def exec (i : Instr) (s : State) : Host.Outcome State Fault Refusal :=
  match i with
  | .enable lane => Sys2Proof.Machine.execEnable lane s
  | .disable lane => Sys2Proof.Machine.execDisable lane s
  | .start lane => Sys2Proof.Machine.execStart lane s
  | .halt lane => Sys2Proof.Machine.execHalt lane s
  | .resume lane => Sys2Proof.Machine.execResume lane s
  | .abort lane => Sys2Proof.Machine.execAbort lane s
  | .laneCommandUnknown lane code => Sys2Proof.Machine.execLaneCommandUnknown lane code s
  | .wheelStart => Sys2Proof.Machine.execWheelStart s
  | .wheelStop => Sys2Proof.Machine.execWheelStop s
  | .wheelRewind => Sys2Proof.Machine.execWheelRewind s
  | .softReset => Sys2Proof.Machine.execSoftReset s
  | .erase => Sys2Proof.Machine.execErase s
  | .globalCommandUnknown code => Sys2Proof.Machine.execGlobalCommandUnknown code s
  | .clearPassEnd => Sys2Proof.Machine.execClearPassEnd s
  | .resetAssert => Sys2Proof.Machine.execResetAssert s
  | .resetRelease => Sys2Proof.Machine.execResetRelease s
  | .recordPointerWrite value => Sys2Proof.Machine.execRecordPointerWrite value s
  | .laneConfigWrite value => Sys2Proof.Machine.execLaneConfigWrite value s
  | .laneSelectWrite value => Sys2Proof.Machine.execLaneSelectWrite value s
  | .recordWordsRead => Sys2Proof.Machine.execRecordWordsRead s
  | .scheduleEntryWrite table entry value => Sys2Proof.Machine.execScheduleEntryWrite table entry value s
  | .slotPeriodWrite value => Sys2Proof.Machine.execSlotPeriodWrite value s
  | .tableSelectWrite value => Sys2Proof.Machine.execTableSelectWrite value s
  | .splitLowRead item => Sys2Proof.Machine.execSplitLowRead item s
  | .splitHighRead item => Sys2Proof.Machine.execSplitHighRead item s
  | .splitLowWrite item value => Sys2Proof.Machine.execSplitLowWrite item value s
  | .mapEntryCommit page value => Sys2Proof.Machine.execMapEntryCommit page value s
  | .apertureWordCommit word value => Sys2Proof.Machine.execApertureWordCommit word value s
  | .portIdleWordCommit port value => Sys2Proof.Machine.execPortIdleWordCommit port value s
  | .aperturePageWrite value => Sys2Proof.Machine.execAperturePageWrite value s
  | .signalSet value => Sys2Proof.Machine.execSignalSet value s
  | .signalClear value => Sys2Proof.Machine.execSignalClear value s
  | .queuePop value => Sys2Proof.Machine.execQueuePop value s
  | .queueThresholdWrite value => Sys2Proof.Machine.execQueueThresholdWrite value s
  | .intStatusWrite value => Sys2Proof.Machine.execIntStatusWrite value s
  | .intEnableWrite value => Sys2Proof.Machine.execIntEnableWrite value s
  | .portRxEnable port value => Sys2Proof.Machine.execPortRxEnable port value s
  | .portTxEnable port value => Sys2Proof.Machine.execPortTxEnable port value s
  | .portRxDisable port value => Sys2Proof.Machine.execPortRxDisable port value s
  | .portTxDisable port value => Sys2Proof.Machine.execPortTxDisable port value s
  | .portStatusWrite port value => Sys2Proof.Machine.execPortStatusWrite port value s
  | .portCounterWrite port counter value => Sys2Proof.Machine.execPortCounterWrite port counter value s
  | .registerWrite offset value => Sys2Proof.Machine.execRegisterWrite offset value s
  | .unusedOffsetAccess offset access => Sys2Proof.Machine.execUnusedOffsetAccess offset access s
  | .slotTick => Sys2Proof.Machine.execSlotTick s
  | .waitTimeout lane => Sys2Proof.Machine.execWaitTimeout lane s
  | .recordLoad words => Sys2Proof.Machine.execRecordLoad words s
  | .cellRead => Sys2Proof.Machine.execCellRead s
  | .wordStep part => Sys2Proof.Machine.execWordStep part s
  | .beatEnd => Sys2Proof.Machine.execBeatEnd s
  | .lookupStart => Sys2Proof.Machine.execLookupStart s
  | .lookupCompletion => Sys2Proof.Machine.execLookupCompletion s
  | .frameStart port => Sys2Proof.Machine.execFrameStart port s
  | .frameEnd port sdi => Sys2Proof.Machine.execFrameEnd port sdi s
  | .sckPeriod port sdi => Sys2Proof.Machine.execSckPeriod port sdi s

end Sys2Proof.Machine
end

