-- ==== Sys2Proof/Machine/Step.lean ====
section
/-! DEFINITION. One step of the part: the command at the front of the queue, or, with no command waiting, one timebase tick
(log 13). -/

namespace Sys2Proof.Machine

/-- One step: the front command is taken and run on the rest of the queue; an empty queue passes one timebase tick. -/
def step (s : State) : Host.Outcome State Fault Refusal :=
  match s.pending with
  | c :: rest => exec c { s with pending := rest }
  | [] => .next (unlessReset s timebaseTick)

/-- The state with the command a word spells put at the front of its queue; no word spells one, so the state is unchanged. -/
def State.withFetchWord (s : State) (nbits w : Nat) : State :=
  match decodeTableWord nbits w with
  | some c => { s with pending := c :: s.pending }
  | none => s

end Sys2Proof.Machine
end

