-- ==== Sys2Proof/Safety.lean ====
section
/-! DEFINITION. The terms in which claims are stated: a command that runs, a command that a RESET pin or a refusal turns away,
and the conditions on the state that the spec says hold at all times. -/

namespace Sys2Proof.Machine

/-- The command answers a next state that satisfies a condition. -/
abbrev Runs (c : Instr) (s : State) (post : State → Prop) : Prop := ∃ t, exec c s = .next t ∧ post t

/-- A condition on the state that SIGNAL_SET of a mask leaves, or, if nothing is to be set, on the state as it is. -/
abbrev AfterSignals (set : Bool) (mask : Half) (u : State) (post : State → Prop) : Prop :=
  if set then Runs (.signalSet mask) u post else post u

/-- The commands that are host reads. -/
def isHostRead : Instr → Bool
  | .recordWordsRead => true
  | .splitLowRead _ => true
  | .splitHighRead _ => true
  | .unusedOffsetAccess _ .read => true
  | _ => false

/-- A read at an offset, as the bus carries it (log 16), returns a value and changes nothing else. -/
abbrev ReadsAs (s : State) (offset : WindowOffset) (v : Half) : Prop :=
  exec (.unusedOffsetAccess offset .read) s = .next { s with window := { s.window with readData := v } }

/-- The commands that only the RESET pin gives. -/
def isResetCommand : Instr → Bool
  | .resetAssert => true
  | .resetRelease => true
  | _ => false

/-- Every lane but one is as before. -/
abbrev OtherLanesKept (s t : State) (l : LaneId) : Prop := ∀ k, k ≠ l → t.lane k = s.lane k

/-- Every port but one is as before. -/
abbrev OtherPortsKept (s t : State) (p : PortId) : Prop := ∀ q, q ≠ p → t.port q = s.port q

/-! ### What a rule makes of a lane, of the lookup unit and of the wheel -/

/-- The interrupt unit with the bits of a mask set. -/
def Interrupts.setting (i : Interrupts) (mask : BitVec 8) : Interrupts := { i with status := i.status ||| mask }

/-- The interrupt unit with INT LANE_FAULT and INT LANE_HALT as given and every other bit kept (R140). -/
def Interrupts.withLaneBits (i : Interrupts) (fault halt : Bool) : Interrupts :=
  { i with status := i.status.extractLsb' 3 5 ++ BitVec.ofBool halt ++ BitVec.ofBool fault ++ i.status.extractLsb' 0 1 }

/-- The interrupt bits of a record that completes at a pointer with an advance: LANE_FAULT at 0x7FFC, where it faults RANGE,
else LANE_HALT under STEP (R16, R36, R41). -/
def completionInts (pointer : LAddr) (step : Bool) : BitVec 8 :=
  if pointer = 0x7FFC then 0x02 else if step then 0x04 else 0

/-- The cursor a retarget to a page leaves (R105). -/
def Cursor.retargeted (c : Cursor) (page : BitVec 7) : Cursor :=
  match c.status with
  | .unset => ⟨page, .pending⟩
  | .pending => ⟨page, .pending⟩
  | .inFlight => ⟨page, .inFlight⟩
  | .mapped target => if c.page = page then ⟨page, .mapped target⟩ else ⟨page, .pending⟩

/-- The entries a retarget appends to the lookup request queue (R105). -/
def Cursor.appended (c : Cursor) (l : LaneId) (r : Role) (page : BitVec 7) : List (LaneId × Role) :=
  match c.status with
  | .unset => [(l, r)]
  | .pending => []
  | .inFlight => []
  | .mapped _ => if c.page = page then [] else [(l, r)]

/-- A lane context cleared into a state (R28, R32): the record pointer and both counters are kept. -/
def Lane.clearedTo (x : Lane) (into : LaneState) (config : LaneConfig) : Lane :=
  { state := into, reasons := ⟨false, false, false⟩, portWait := none, phase := .load
    progress := ⟨x.progress.pointer, none, .src, 0, 0, 0, 0, 0, 0⟩, repeatRecord := none, pendingPost := none
    wait := none, haltReason := none, resume := none, deferred := none, credit := 0, missed := x.missed
    beats := x.beats, config := config, fault := none, walk := ⟨0, .unset⟩, hop := ⟨0, .unset⟩
    src := ⟨0, .unset⟩, dst := ⟨0, .unset⟩ }

/-- A lane that has entered FAULTED (R41): record pointer, phase, record copy, progress, repeat record, pending post, counters
and configuration are kept. -/
def Lane.faultedWith (x : Lane) (f : FaultRecord) : Lane :=
  { x with
    state := .faulted, reasons := ⟨false, false, false⟩, portWait := none, wait := none, haltReason := none
    resume := none, deferred := none, credit := 0, fault := some f, walk := ⟨0, .unset⟩, hop := ⟨0, .unset⟩
    src := ⟨0, .unset⟩, dst := ⟨0, .unset⟩ }

/-- A lane that would enter ACTIVE: BLOCKED on MAP if a cursor its phase needs is not MAPPED (R25). -/
def Lane.enterActive (x : Lane) : Lane :=
  if x.neededMapped then { x with state := .active, reasons := ⟨false, false, false⟩ }
  else { x with state := .blocked, reasons := ⟨true, false, false⟩ }

/-- A lane that enters HALTED (R30, R36, R37). -/
def Lane.haltedBy (x : Lane) (reason : HaltReason) (resume : Resume) : Lane :=
  { x with
    state := .halted, haltReason := some reason, resume := some resume, reasons := ⟨false, false, false⟩
    credit := 0 }

/-- A lane whose LINK has jumped to a target, or whose record has completed with an advance to it (R7, R16, R25, R36, R90). -/
def Lane.jumped (x : Lane) (target : LAddr) (step : Bool) : Lane :=
  let y : Lane :=
    { x with
      phase := .load, progress := { x.progress with pointer := target, current := none }
      walk := x.walk.retargeted target.page }
  if step then y.haltedBy .step .active else y.enterActive

/-- A lane whose record has completed with an advance; at 0x7FFC it faults RANGE, the copy dropped and the phase LOAD
(R16, R36, R41; log 11). -/
def Lane.completed (x : Lane) (step : Bool) : Lane :=
  if x.progress.pointer = 0x7FFC then
    ({ x with phase := .load, progress := { x.progress with current := none } } : Lane).faultedWith
      ⟨.range, 0x7FFC, 0x7FFC, .walk, 0⟩
  else x.jumped (x.progress.pointer + 4) step

/-- A lane whose WAIT has completed outside a beat (R125, R127, R31). -/
def Lane.afterWait (x : Lane) : Lane := ({ x with wait := none } : Lane).completed x.config.step

/-- A lane whose STOP has completed (R14). -/
def Lane.stopped (x : Lane) : Lane :=
  { x with
    state := .idle, reasons := ⟨false, false, false⟩, portWait := none, phase := .load
    progress := { x.progress with current := none }, repeatRecord := none, pendingPost := none, wait := none
    credit := 0, walk := ⟨0, .unset⟩, hop := ⟨0, .unset⟩, src := ⟨0, .unset⟩, dst := ⟨0, .unset⟩ }

/-- A lane whose push has met a full queue (R133). -/
def Lane.heldOnQueue (x : Lane) (kind : EntryKind) (tag : Half) : Lane :=
  { x with
    pendingPost := some ⟨kind, tag⟩, phase := .finish, portWait := none, state := .blocked
    reasons := ⟨false, false, true⟩ }

/-- A lane whose MOVE has set up its transfer between two addresses (R75, R96, R105, R25). -/
def Lane.transferring (x : Lane) (count : Nat) (source destination : LAddr) : Lane :=
  ({ x with
    portWait := none, phase := .transfer
    progress := { x.progress with
      resolvedSource := source, resolvedDestination := destination, remaining := count, sourcePosition := source
      destinationPosition := destination }
    src := x.src.retargeted source.page, dst := x.dst.retargeted destination.page } : Lane).enterActive

/-- A lane that begins to resolve a reference at its first cell (R75, R76, R94, R105, R25). -/
def Lane.resolving (x : Lane) (target : ResolveTarget) (cell : LAddr) : Lane :=
  ({ x with
    portWait := none, phase := .resolve
    progress := match target with
      | .dst => { x.progress with resolveTarget := .dst, hopCount := 0, resolvedDestination := cell }
      | other => { x.progress with resolveTarget := other, hopCount := 0, resolvedSource := cell }
    hop := x.hop.retargeted cell.page } : Lane).enterActive

/-- A lane whose LINK's chain has ended at its target: hop count 0, resolve target SRC, HOP UNSET (R94, R97). -/
def Lane.resolvedTo (x : Lane) (target : LAddr) : Lane :=
  { x with
    hop := ⟨0, .unset⟩
    progress := { x.progress with resolveTarget := .src, hopCount := 0, resolvedSource := target } }

/-- A lane that loses block reasons or held reasons (R23, R38). -/
def Lane.losing (x : Lane) (remove : Reasons → Reasons) : Lane :=
  match x.state, x.resume with
  | .blocked, _ =>
    if remove x.reasons = ⟨false, false, false⟩ then x.enterActive else { x with reasons := remove x.reasons }
  | .halted, some (.blocked held) =>
    if remove held = ⟨false, false, false⟩ then { x with resume := some .active }
    else { x with resume := some (.blocked (remove held)) }
  | _, _ => x

/-- A lane that takes a MAPPED cursor: MAP is removed when every cursor its phase needs is MAPPED (R110, R25, R38). -/
def Lane.mappedTo (x : Lane) (r : Role) (c : Cursor) : Lane :=
  let y := x.setCursor r c
  if holdsReason y Reasons.map && y.neededMapped then y.losing fun h => { h with map := false } else y

/-- The lookup unit after the release of all four cursors of a lane (R106, R107). -/
def MapUnit.without (m : MapUnit) (l : LaneId) : MapUnit :=
  { m with
    queue := m.queue.filter fun q => q.1 != l
    lookup := m.lookup.map fun k => if k.lane = l then { k with disposition := .abandoned } else k }

/-- The read index of RECORD_WORDS after a lane's record copy has been taken or dropped (R177). -/
def Window.indexAfter (w : Window) (l : LaneId) (changed : Bool) : BitVec 3 :=
  if w.laneSelect = l ∧ changed = true then 0 else w.recordIndex

/-- The context of a beat's lane once it has taken the beat's progress and the counter has counted it (R72, R45). -/
def Lane.served (x : Lane) (b : Beat) : Lane :=
  { x with progress := b.progress, beats := x.beats + 1, deferred := none }

/-- The beat dispatches a record: a DISPATCH beat, or a LOAD beat that has read a valid record with BREAK clear (R73, R80). -/
abbrev Beat.dispatches (b : Beat) (r : RecordCopy) : Prop :=
  b.progress.current = some r ∧
    (b.work = .dispatch ∨
      (b.work.isLoad = true ∧ b.work.over = true ∧ r.validate b.progress.pointer = none ∧ r.breakFlag = false))

/-- The lane of a beat goes on after the beat end with nothing deferred, and nothing stands between the beat and its end. -/
abbrev BeatEnds (s : State) (b : Beat) : Prop :=
  s.resetPin = false ∧ s.beat = some b ∧ b.work.over = true ∧ (s.lane b.lane).deferred = none

/-- The state with nothing deferred for a lane. -/
def State.undeferred (s : State) (l : LaneId) : State := s.setLane l { s.lane l with deferred := none }

/-- A lane other than one has entered a lane state between two states. -/
def State.othersEntered (s u : State) (l : LaneId) (into : LaneState) : Bool :=
  allLanes.any fun k => k != l && (u.lane k).state == into && (s.lane k).state != into

/-- The beat end leaves the beat's lane FAULTED with this record, and nothing else but the beat, the lookup unit and INT
LANE_FAULT changed (R41). -/
abbrev FaultsAtEnd (s : State) (b : Beat) (f : FaultRecord) : Prop :=
  exec .beatEnd s = .next { s.setLane b.lane (((s.lane b.lane).served b).faultedWith f) with
    beat := none, map := s.map.without b.lane, ints := s.ints.setting 0x02 }

/-- The beat end makes the beat's lane jump to a target from a context, with the lookup request queue before its WALK is
retargeted (R7, R90). -/
abbrev JumpsTo (s : State) (b : Beat) (x : Lane) (queue : List (LaneId × Role)) (target : LAddr) : Prop :=
  Runs .beatEnd s fun t =>
    t.lane b.lane = x.jumped target b.step ∧ OtherLanesKept s t b.lane ∧ t.map.entries = s.map.entries ∧
      t.map.queue = queue ++ x.walk.appended b.lane .walk target.page ∧
      t.ints = (if b.step then s.ints.setting 0x04 else s.ints) ∧
      t = { s with beat := none, lanes := t.lanes, map := t.map, ints := t.ints, window := t.window }

/-- The source is a port whose receive direction is disabled (R82, test 4). -/
def State.sourceOff (s : State) : Translation → Bool
  | .port p _ => !(s.port p).rxEnable
  | .memory _ _ _ => false

/-- The destination is a port whose transmit direction is disabled (R82, test 5). -/
def State.destinationOff (s : State) : Translation → Bool
  | .port q _ => !(s.port q).txEnable
  | .memory _ _ _ => false

/-- The first of the seven tests before a word that holds, as the outcome of the word steps (R82). -/
def State.stopBefore (s : State) (b : Beat) (r : RecordCopy) (src dst : BeatCursor) (moved : Nat) : Option Stop :=
  if b.progress.remaining = 0 then some .finish
  else if moved = b.burst then some .burst
  else if crossed src r.srcFixed b.progress.sourcePosition = true ∨
      crossed dst r.dstFixed b.progress.destinationPosition = true then some .crossing
  else if s.sourceOff src.target then some (.portOff .src)
  else if s.destinationOff dst.target then some (.portOff .dst)
  else match src.target, dst.target with
    | .port p _, .port q _ =>
      if (s.port p).rxFifo = [] then some (.portEmpty p)
      else if 32 ≤ (s.port q).txFifo.length then some (.portFull q) else none
    | .port p _, .memory _ _ _ => if (s.port p).rxFifo = [] then some (.portEmpty p) else none
    | .memory _ _ _, .port q _ => if 32 ≤ (s.port q).txFifo.length then some (.portFull q) else none
    | .memory _ _ _, .memory _ _ _ => none

/-- A TRANSFER beat once a word has been counted: remaining, positions, and the RANGE stop of a position past 0x7FFF (R83, R86). -/
def Beat.afterWord (b : Beat) (r : RecordCopy) (src dst : BeatCursor) (moved : Nat) : Beat :=
  { b with
    work := .transfer src dst (moved + 1) none
      (if b.progress.remaining = 1 then none
       else if advancing src.target r.srcFixed = true ∧ b.progress.sourcePosition = 0x7FFF then some (.range .src)
       else if advancing dst.target r.dstFixed = true ∧ b.progress.destinationPosition = 0x7FFF then some (.range .dst)
       else none)
    progress := { b.progress with
      remaining := b.progress.remaining - 1
      sourcePosition :=
        if advancing src.target r.srcFixed = true ∧ b.progress.sourcePosition ≠ 0x7FFF then
          b.progress.sourcePosition + 1
        else b.progress.sourcePosition
      destinationPosition :=
        if advancing dst.target r.dstFixed = true ∧ b.progress.destinationPosition ≠ 0x7FFF then
          b.progress.destinationPosition + 1
        else b.progress.destinationPosition } }

/-- A word may move: none of the seven tests holds (R82). -/
abbrev State.wordMayMove (s : State) (b : Beat) (r : RecordCopy) (src dst : BeatCursor) (moved : Nat) : Prop :=
  b.progress.remaining ≠ 0 ∧ moved ≠ b.burst ∧
  crossed src r.srcFixed b.progress.sourcePosition = false ∧
  crossed dst r.dstFixed b.progress.destinationPosition = false ∧
  (∀ p d, src.target = .port p d → (s.port p).rxEnable = true ∧ (s.port p).rxFifo ≠ []) ∧
  ∀ q d, dst.target = .port q d → (s.port q).txEnable = true ∧ (s.port q).txFifo.length < 32

/-- The four words at a record pointer's offsets of a physical page (R73). -/
def State.wordsOf (s : State) (page : BitVec 6) (pointer : LAddr) : RecordCopy :=
  ⟨s.readMem page pointer.offset, s.readMem page (pointer + 1).offset, s.readMem page (pointer + 2).offset,
    s.readMem page (pointer + 3).offset⟩

/-- The words of a record copy in order. -/
def RecordCopy.toList (r : RecordCopy) : List Word := [r.word0, r.word1, r.word2, r.word3]

/-- A TRANSFER beat that has ended its word steps with the finish step (R82, test 1). -/
def BeatWork.isFinishStep : BeatWork → Bool
  | .transfer _ _ _ _ (some .finish) => true
  | _ => false

/-- A completion entry a push makes, as the queue and the wheel stand (R132). -/
def State.entryFor (s : State) (l : LaneId) (kind : EntryKind) (tag : Half) (address : LAddr) : Entry :=
  ⟨s.queue.nextSequence, l, kind, tag, address, s.wheel.slotCount.setWidth 16⟩

/-- The queue after a push that is made (R132). -/
def State.queueWith (s : State) (e : Entry) : CompletionQueue :=
  { s.queue with entries := s.queue.entries ++ [e], nextSequence := s.queue.nextSequence + 1 }

/-- Whether a push that is made leaves the level at or above the threshold (R132, R138). -/
def State.pushSetsQueue (s : State) : Bool :=
  s.queue.thresholdField.toNat + 1 ≤ s.queue.entries.length + 1

/-- The interrupt bits of a push that is made: QUEUE at or above the threshold (R132, R138). -/
def State.pushInts (s : State) : BitVec 8 := if s.pushSetsQueue then 0x01 else 0

/-- A cursor after the shootdown of a page (R112). -/
def Cursor.shot (c : Cursor) (page : BitVec 7) : Cursor :=
  if c.isMapped && c.page == page then ⟨page, .pending⟩ else c

/-- A lane after the shootdown of a page, in which its own beat is or is not in progress (R112, R114, R25). -/
def Lane.shot (x : Lane) (page : BitVec 7) (inBeat : Bool) : Lane :=
  let y : Lane :=
    { x with walk := x.walk.shot page, hop := x.hop.shot page, src := x.src.shot page, dst := x.dst.shot page }
  if y = x ∨ y.neededMapped = true then y
  else match x.state with
    | .active => if inBeat then y else { y with state := .blocked, reasons := ⟨true, false, false⟩ }
    | .blocked => { y with reasons := { x.reasons with map := true } }
    | _ => y

/-- The cursors of a lane that the shootdown of a page re-pends, in role order (R112). -/
def Lane.shotCursors (x : Lane) (l : LaneId) (page : BitVec 7) : List (LaneId × Role) :=
  (allRoles.filter fun r => (x.cursor r).isMapped && (x.cursor r).page == page).map fun r => (l, r)

/-- The work of a beat after a disable of a port's transmit direction: a word held for it will not be pushed (R83, R152). -/
def BeatWork.discarding (p : PortId) : BeatWork → BeatWork
  | .transfer src ⟨page, .port q d⟩ moved (some h) stop =>
    if q = p then .transfer src ⟨page, .port q d⟩ moved (some { h with discard := true }) stop
    else .transfer src ⟨page, .port q d⟩ moved (some h) stop
  | w => w

/-- A port after a PORT_CONFIG write has given it its fields (R149). -/
def Port.configured (x : Port) (v : Half) : Port :=
  { x with
    rxEnable := v.getLsbD 0, txEnable := v.getLsbD 1, rxSignalEnable := v.getLsbD 4
    txSignalEnable := v.getLsbD 5, rxSignal := v.extractLsb' 8 4, txSignal := v.extractLsb' 12 4 }

/-- Whether an FS strobe breaks a frame that counts: IN_FRAME, with a direction enabled (R147). -/
def Port.broken (x : Port) : Bool := x.inFrame && (x.rxEnable || x.txEnable)

/-- A port at an FS strobe, before its transmit direction is served (R145, R147). -/
def Port.strobed (x : Port) : Port :=
  { x with
    frameErrors := if x.broken then satInc x.frameErrors else x.frameErrors
    frameErrorFlag := x.frameErrorFlag || x.broken, inFrame := true, bits := 0, received := 0
    capture := x.rxEnable }

/-- The received word once the bit on SDI has filled its next place, most significant first (R144). -/
def Port.filled (x : Port) (sdi : Bool) : Word :=
  if sdi then x.received ||| BitVec.twoPow 32 (31 - x.bits) else x.received

/-- A port whose frame has ended with a bit (R146). -/
def Port.ended (x : Port) (sdi : Bool) : Port := { x with inFrame := false, bits := 0, received := x.filled sdi }

/-- A lane after a frame event that releases a direction of a port (R156). -/
def Lane.releasedBy (x : Lane) (w : PortWait) : Lane :=
  if x.portWait = some w then ({ x with portWait := none } : Lane).losing fun h => { h with port := false } else x

/-- How far in rotation a lane stands after the rotation pointer: 0 for the lane after it, 11 for itself (R56). -/
def rotationDistance (pointer l : LaneId) : Nat := (l.val + 11 - pointer.val) % 12

/-- A READY lane that the spare assignment may serve by rotation (R56). -/
def State.spareReady (s : State) (l : LaneId) : Bool := s.ready l && (s.lane l).config.spare

/-- The lane that the entry at the position names and that is READY (R53). -/
def State.ownSlotLane (s : State) : Option LaneId :=
  match s.wheel.nextEntry.named with
  | some l => if s.ready l then some l else none
  | none => none

/-- A lane after the gain of R54: a BLOCKED lane that the entry at the position names. -/
def State.afterGain (s : State) (l : LaneId) : Lane :=
  if s.wheel.nextEntry.named = some l ∧ (s.lane l).state = .blocked then
    { s.lane l with credit := min 3 ((s.lane l).credit + 1), missed := satInc (s.lane l).missed }
  else s.lane l

/-- The beat that a tick begins for a lane (R59, R69). -/
def State.beatFor (s : State) (l : LaneId) : Option Beat :=
  (s.lane l).beatWork.map fun work =>
    ⟨l, (s.lane l).config.step, (s.lane l).config.burstField.toNat + 1, (s.lane l).progress, work⟩

/-- What a slot tick leaves as it is, and the lanes it hands no timeout count to (R57, R58). -/
abbrev TickFrame (s t : State) (lanes : LaneId → Lane) : Prop :=
  (∀ l, countedWait (s.lane l) = none → t.lane l = lanes l) ∧ t.signals = s.signals ∧ t.ports = s.ports ∧
    t.mem = s.mem ∧ t.map.entries = s.map.entries ∧ t.clearing = s.clearing ∧ t.resetPin = s.resetPin ∧
    t.pending = s.pending ∧ t.window = { s.window with recordIndex := t.window.recordIndex }

/-- What a slot tick makes of INT OVERRUN, of INT SWAP, set when a wrap takes up the other table, and of the bits that it never
sets (R52, R57, R140). -/
abbrev TickInterrupts (s t : State) (overran : Bool) : Prop :=
  t.ints.enable = s.ints.enable ∧
  t.ints.status.getLsbD 4 = (s.ints.status.getLsbD 4 || overran) ∧
  t.ints.status.getLsbD 5 = (s.ints.status.getLsbD 5 ||
    ((s.wheel.nextEntry.endFlag || s.wheel.position == 31) && s.wheel.swapPending)) ∧
  ∀ i ∈ [3, 6, 7], t.ints.status.getLsbD i = s.ints.status.getLsbD i

/-- The next slot tick brings the timeout left of a lane to 0 (R126). -/
def State.timesOut (s : State) (l : LaneId) : Bool :=
  match (s.lane l).state, (s.lane l).wait with
  | .waiting, some w => w.timeoutLeft == 1
  | _, _ => false

/-- The lanes whose timeout the next slot tick takes and whose wait posts on it, in ascending number (R127). -/
def State.timeoutPosts (s : State) : List LaneId :=
  allLanes.filter fun l => s.timesOut l && (s.lane l).wait.any Wait.postOnTimeout

/-- Those of them whose TIMEOUT entry finds room in the queue: the first of them, as many as are vacant (R127). -/
def State.timeoutsPosted (s : State) : List LaneId := s.timeoutPosts.take (32 - s.queue.entries.length)

/-- The TIMEOUT entries that the next slot tick pushes, with the slot count as that tick leaves it as stamp (R58, R127, R132). -/
def State.timeoutEntries (s : State) : List Entry :=
  s.timeoutsPosted.zipIdx.map fun (l, k) =>
    ⟨s.queue.nextSequence + BitVec.ofNat 8 k, l, .timeout, ((s.lane l).wait.map Wait.tag).getD 0,
      (s.lane l).progress.pointer, (s.wheel.slotCount + 1).setWidth 16⟩

/-- The next slot tick completes the WAIT of a lane: its timeout is taken, and it posts nothing or its entry finds room (R127). -/
def State.waitEnds (s : State) (l : LaneId) : Bool :=
  s.timesOut l && (!(s.lane l).wait.any Wait.postOnTimeout || s.timeoutsPosted.contains l)

/-- The wheel after the advance of a slot tick (R51, R57). -/
def Wheel.advanced (w : Wheel) : Wheel :=
  { w with
    slotCount := w.slotCount + 1, timer := some ⟨w.period.toNat, 0⟩
    active := if w.nextEntry.endFlag || w.position == 31 then w.select else w.active
    position := if w.nextEntry.endFlag || w.position == 31 then 0 else w.position + 1 }

/-! ### Conditions that hold at all times -/

/-- Exchange memory is in its canonical form (log 8). -/
abbrev State.memoryCanonical (s : State) : Prop := Memory.wf s.mem

/-- The queue holds at most 32 entries, and their sequence numbers run consecutively modulo 256 from oldest to newest, up to
the sequence counter (R131, R134). -/
abbrev CompletionQueue.inOrder (q : CompletionQueue) : Prop :=
  q.entries.length ≤ 32 ∧
    ∀ k (h : k < q.entries.length),
      (q.entries[k]).sequence + BitVec.ofNat 8 (q.entries.length - k) = q.nextSequence

/-- A lane context whose optional parts agree with its state: a fault record exactly while FAULTED (R41), block reasons
exactly while BLOCKED (R23), halt reason and resume state exactly while HALTED (R20), held reasons never empty (R38), a port
wait exactly while PORT is a block reason or a held reason (R23), a wait exactly while WAITING or halted in WAITING (R11, R30),
and a credit of at most 3 that only an ACTIVE or BLOCKED lane holds (R60). -/
abbrev Lane.consistent (x : Lane) : Prop :=
  (x.fault.isSome = true ↔ x.state = .faulted) ∧
  (x.reasons ≠ .empty ↔ x.state = .blocked) ∧
  (x.haltReason.isSome = true ↔ x.state = .halted) ∧
  (x.resume.isSome = true ↔ x.state = .halted) ∧
  x.resume ≠ some (.blocked .empty) ∧
  (x.portWait.isSome = true ↔ x.reasons.port = true ∨ (Resume.held x.resume).port = true) ∧
  (x.wait.isSome = true ↔ x.state = .waiting ∨ x.resume = some .waiting) ∧
  x.credit ≤ 3 ∧
  (x.state ≠ .active → x.state ≠ .blocked → x.credit = 0)

/-- Every lane context is consistent, the lane of a beat in progress is ACTIVE (R21, R59), and a deferred request is held
only while the lane's own beat is in progress (R33). -/
abbrev State.lanesConsistent (s : State) : Prop :=
  (∀ l, (s.lane l).consistent) ∧
  (∀ b, s.beat = some b → (s.lane b.lane).state = .active) ∧
  ∀ l, (s.lane l).deferred.isSome = true → s.ownBeat l = true

/-- No set signal is named by the mask of a WAITING lane (R123). -/
abbrev State.signalsUnawaited (s : State) : Prop :=
  ∀ l w, (s.lane l).state = .waiting → (s.lane l).wait = some w → s.signals &&& w.mask = 0

/-- While a lane holds QUEUE, as a block reason or as a held reason, the queue is full (R137). -/
abbrev State.queueHeldOnlyFull (s : State) : Prop :=
  ∀ l, holdsReason (s.lane l) Reasons.queue = true → 32 ≤ s.queue.entries.length

/-- The lookup request queue holds exactly the PENDING cursors, each once; the IN_FLIGHT cursor is the one of a lookup in
progress that is not abandoned; a live lookup looks up its cursor's page; an UNSET cursor's page is 0; and an OFF, IDLE or
FAULTED lane's cursors are all UNSET (R104, R106, R107, R41). -/
abbrev State.lookupsSound (s : State) : Prop :=
  s.map.queue.Nodup ∧
  (∀ l r, (l, r) ∈ s.map.queue ↔ ((s.lane l).cursor r).status = .pending) ∧
  (∀ l r, ((s.lane l).cursor r).status = .inFlight ↔
    ∃ k, s.map.lookup = some k ∧ k.disposition ≠ .abandoned ∧ k.lane = l ∧ k.role = r) ∧
  (∀ k, s.map.lookup = some k → k.disposition = .live → ((s.lane k.lane).cursor k.role).page = k.page) ∧
  (∀ l r, ((s.lane l).cursor r).status = .unset → ((s.lane l).cursor r).page = 0) ∧
  ∀ l, (s.lane l).state = .off ∨ (s.lane l).state = .idle ∨ (s.lane l).state = .faulted →
    ∀ r, (s.lane l).cursor r = .unset

/-- Every MAPPED cursor holds the translation of its page's entry as the page map holds it now, and passes that entry's checks
for its lane and role (R104, R109, R112). -/
abbrev State.cursorsAgree (s : State) : Prop :=
  ∀ l r target, ((s.lane l).cursor r).status = .mapped target →
    (s.mapEntry ((s.lane l).cursor r).page).check l r = none ∧
      target = (s.mapEntry ((s.lane l).cursor r).page).translation

/-- A port's FIFOs hold at most 32 words, those of a disabled direction none; a frame is captured only for an enabled receive
direction, a disabled transmit direction sends zeros, and bits exchanged is 0 to 31, and 0 between frames (R144, R148, R151). -/
abbrev Port.sound (x : Port) : Prop :=
  x.rxFifo.length ≤ 32 ∧ x.txFifo.length ≤ 32 ∧
  (x.rxEnable = false → x.rxFifo = [] ∧ x.capture = false) ∧
  (x.txEnable = false → x.txFifo = [] ∧ x.shiftWord = 0) ∧
  x.bits ≤ 31 ∧ (x.inFrame = false → x.bits = 0)

/-- A word that a beat holds for a port is still to be pushed only if the transmit direction is enabled (R83). -/
def heldWordSound (s : State) : BeatWork → Prop
  | .transfer _ ⟨_, .port q _⟩ _ (some h) _ => h.discard = true ∨ (s.port q).txEnable = true
  | _ => True

/-- A TRANSFER beat that holds a word has words left to move: test 1 found remaining not 0 before the word was read (R82). -/
abbrev Beat.heldWordCounts (b : Beat) : Prop :=
  match b.work with
  | .transfer _ _ _ (some _) _ => b.progress.remaining ≠ 0
  | _ => True

/-- Every port is sound, and so is the word a beat holds. -/
abbrev State.portsSound (s : State) : Prop :=
  (∀ p, (s.port p).sound) ∧ ∀ b, s.beat = some b → heldWordSound s b.work ∧ b.heldWordCounts

/-- The slot timer counts exactly while the wheel is RUNNING, within a slot of at least 8 timebase ticks (R51), and while a
clear pass is in progress or RESET is asserted the wheel is STOPPED and no beat is in progress (R92, R170, R171). -/
abbrev State.wheelSound (s : State) : Prop :=
  (s.wheel.running = true ↔ s.wheel.timer.isSome = true) ∧
  8 ≤ s.wheel.period.toNat ∧
  (∀ t, s.wheel.timer = some t → 8 ≤ t.length ∧ t.elapsed < t.length) ∧
  (s.clearing = true ∨ s.resetPin = true → s.wheel.running = false ∧ s.beat = none)

end Sys2Proof.Machine
end

