-- ==== Sys2Proof/Certificates/Slice0/Obligations.lean ====
section
/-! DEFINITION. The statements about the part for the provers, from the spec's numbered rules. -/

open Sys2Proof Sys2Proof.Machine

/-- A step runs the command at the front of the queue on the queue's rest; with none waiting it passes one timebase tick
(00_scope.md, Conventions, Time, 03_the_slot_wheel.md R51, assumption log 1, assumption log 13). -/
def Obligations.StepRunsTheFrontCommandOrOneTimebaseTick : Prop :=
  (∀ (c : Instr) (s : State), step { s with pending := c :: s.pending } = exec c s) ∧
  ∀ (s : State), s.pending = [] → s.resetPin = false →
    (s.wheel.timer = none → step s = .next s) ∧
    (∀ t, s.wheel.timer = some t → t.elapsed + 1 < t.length →
      step s = .next { s with wheel := { s.wheel with timer := some ⟨t.length, t.elapsed + 1⟩ } }) ∧
    (∀ t, s.wheel.timer = some t → t.length ≤ t.elapsed + 1 → step s = exec .slotTick s)

/-- A read of a halfword item returns its fields at their bits, 0 elsewhere, and changes nothing but the data returned
(R44, R120, R135, R158, R161, R173, R174, R175, 11_register_and_format_reference.md 11.1, 11.3 to 11.7, assumption log
9, assumption log 16, assumption log 17). -/
def Obligations.ReadsByOffsetReturnTheItem : Prop :=
  ∀ (s : State), s.resetPin = false →
    (∀ row ∈ ([(0x000, 0xAB3A), (0x002, 0x3208), (0x004, 0x0001),
        (0x010, (0 : BitVec 12) ++ BitVec.ofBool s.wheel.swapPending ++ BitVec.ofBool (s.wheel.active == .b) ++
          BitVec.ofBool s.wheel.running ++ BitVec.ofBool s.clearing),
        (0x012, 0), (0x014, s.window.commandResult.code), (0x016, (0 : BitVec 10) ++ s.window.aperturePage),
        (0x020, (0 : BitVec 8) ++ s.ints.status), (0x022, (0 : BitVec 8) ++ s.ints.enable),
        (0x028, (0 : BitVec 12) ++ BusCause.code s.window.capture.cause),
        (0x02A, (0 : BitVec 5) ++ s.window.capture.offset), (0x02C, (0 : BitVec 8) ++ s.window.capture.count),
        (0x030, s.signals), (0x032, 0), (0x034, 0), (0x040, BitVec.ofNat 16 s.wheel.position.val),
        (0x042, (0 : BitVec 15) ++ BitVec.ofBool (s.wheel.select == .b)), (0x044, s.wheel.period),
        (0x046, BitVec.ofNat 16 s.wheel.rotation.val), (0x04C, s.wheel.overruns), (0x060, 0),
        (0x062, s.window.laneArgument), (0x064, s.window.laneResult.code),
        (0x066, BitVec.ofNat 16 s.window.laneSelect.val)] : List (WindowOffset × Half)),
      ReadsAs s row.1 row.2) ∧
    (∀ row ∈ ([(0x068, .faulted), (0x06A, .halted)] : List (WindowOffset × LaneState)),
      Runs (.unusedOffsetAccess row.1 .read) s fun t =>
        (∀ l : LaneId, t.window.readData.getLsbD l.val = decide ((s.lane l).state = row.2)) ∧
        t.window.readData.extractLsb' 12 4 = 0 ∧
        t = { s with window := { s.window with readData := t.window.readData } }) ∧
    (∀ x, x = s.lane s.window.laneSelect → ∀ row ∈ ([
        (0x070, Deferred.code x.deferred ++ HaltReason.code x.haltReason ++
          BitVec.ofBool (Resume.held x.resume).queue ++ BitVec.ofBool (Resume.held x.resume).port ++
          BitVec.ofBool (Resume.held x.resume).map ++ BitVec.ofBool x.reasons.queue ++ BitVec.ofBool x.reasons.port ++
          BitVec.ofBool x.reasons.map ++ x.phase.code ++ x.state.code),
        (0x072, (x.pendingPost.map fun e => e.kind.code).getD 0 ++ BitVec.ofBool (x.wait.any Wait.postOnTimeout) ++
          BitVec.ofBool (x.wait.any Wait.consume) ++ BitVec.ofBool (x.portWait.any fun w => w.dir == .tx) ++
          (x.portWait.map fun w => BitVec.ofNat 2 w.port.val).getD 0 ++ Resume.code x.resume ++
          BitVec.ofBool x.fault.isSome ++ BitVec.ofBool x.portWait.isSome ++ BitVec.ofBool x.wait.isSome ++
          BitVec.ofBool x.pendingPost.isSome ++ BitVec.ofBool x.repeatRecord.isSome ++
          BitVec.ofBool x.progress.current.isSome),
        (0x074, (0 : BitVec 1) ++ x.progress.pointer),
        (0x076, (0 : BitVec 10) ++ BitVec.ofBool x.config.spare ++ BitVec.ofBool x.config.step ++ x.config.burstField),
        (0x078, x.dst.status.code ++ x.src.status.code ++ x.hop.status.code ++ x.walk.status.code ++ (0 : BitVec 1) ++
          BitVec.ofNat 2 x.credit ++ BitVec.ofNat 3 x.progress.hopCount ++ x.progress.resolveTarget.code),
        (0x07A, (0 : BitVec 1) ++ x.progress.resolvedSource), (0x07C, (0 : BitVec 1) ++ x.progress.resolvedDestination),
        (0x07E, BitVec.ofNat 16 x.progress.remaining), (0x080, (0 : BitVec 1) ++ x.progress.sourcePosition),
        (0x082, (0 : BitVec 1) ++ x.progress.destinationPosition),
        (0x084, (0 : BitVec 1) ++ (x.repeatRecord.map RepeatRecord.address).getD 0),
        (0x086, BitVec.ofNat 16 ((x.repeatRecord.map RepeatRecord.remaining).getD 0)),
        (0x088, (x.wait.map Wait.mask).getD 0), (0x08A, BitVec.ofNat 16 ((x.wait.map Wait.timeoutLeft).getD 0)),
        (0x08C, ((x.wait.map Wait.tag).or (x.pendingPost.map PendingPost.tag)).getD 0),
        (0x08E, (0 : BitVec 7) ++ BitVec.ofNat 3 ((x.fault.map FaultRecord.hopCount).getD 0) ++
          (x.fault.map fun f => f.role.code).getD 0 ++ (x.fault.map fun f => f.cause.code).getD 0),
        (0x090, (0 : BitVec 1) ++ (x.fault.map FaultRecord.recordAddress).getD 0),
        (0x092, (0 : BitVec 1) ++ (x.fault.map FaultRecord.offending).getD 0), (0x094, x.missed),
        (0x09A, (0 : BitVec 1) ++ x.hop.page ++ (0 : BitVec 1) ++ x.walk.page),
        (0x09C, (0 : BitVec 1) ++ x.dst.page ++ (0 : BitVec 1) ++ x.src.page)] : List (WindowOffset × Half)),
      ReadsAs s row.1 row.2) ∧
    (∀ row ∈ ([
        (0x0A0, (s.queue.entries.head?.map fun e =>
          (0 : BitVec 1) ++ e.kind.code ++ BitVec.ofNat 4 e.lane.val ++ e.sequence).getD 0),
        (0x0A2, (s.queue.entries.head?.map Entry.tag).getD 0),
        (0x0A4, (0 : BitVec 1) ++ (s.queue.entries.head?.map Entry.recordAddress).getD 0),
        (0x0A6, (s.queue.entries.head?.map Entry.stamp).getD 0), (0x0A8, BitVec.ofNat 16 s.queue.entries.length),
        (0x0AA, (0 : BitVec 8) ++ s.queue.nextSequence), (0x0AC, (0 : BitVec 11) ++ s.queue.thresholdField),
        (0x0AE, 0)] : List (WindowOffset × Half)),
      ReadsAs s row.1 row.2) ∧
    (∀ (p : PortId) (y : Port), y = s.port p → y.rxFifo.length ≤ 32 → y.txFifo.length ≤ 32 → ∀ row ∈ ([
        (0x0C0, y.txSignal ++ y.rxSignal ++ (0 : BitVec 2) ++ BitVec.ofBool y.txSignalEnable ++
          BitVec.ofBool y.rxSignalEnable ++ (0 : BitVec 2) ++ BitVec.ofBool y.txEnable ++ BitVec.ofBool y.rxEnable),
        (0x0C2, (0 : BitVec 3) ++ y.txMark ++ (0 : BitVec 3) ++ y.rxMarkField),
        (0x0C8, BitVec.ofNat 6 y.txFifo.length ++ BitVec.ofNat 6 y.rxFifo.length ++ (0 : BitVec 1) ++
          BitVec.ofBool y.frameErrorFlag ++ BitVec.ofBool y.underrunFlag ++ BitVec.ofBool y.overrunFlag),
        (0x0CA, y.overruns), (0x0CC, y.underruns), (0x0CE, y.frameErrors)] : List (WindowOffset × Half)),
      ReadsAs s (row.1 + BitVec.ofNat 11 (16 * p.val)) row.2) ∧
    (∀ e : Fin 32,
      (∀ x, x = s.wheel.tableA.get e → ReadsAs s (0x100 + BitVec.ofNat 11 (2 * e.val))
        (BitVec.ofBool x.endFlag ++ BitVec.ofBool x.vacant ++ (0 : BitVec 10) ++ x.lane)) ∧
      ∀ x, x = s.wheel.tableB.get e → ReadsAs s (0x140 + BitVec.ofNat 11 (2 * e.val))
        (BitVec.ofBool x.endFlag ++ BitVec.ofBool x.vacant ++ (0 : BitVec 10) ++ x.lane)) ∧
    (∀ row ∈ ([(0x048, .splitLowRead .slotCount), (0x04A, .splitHighRead .slotCount), (0x096, .splitLowRead .beats),
        (0x098, .splitHighRead .beats), (0x09E, .recordWordsRead)] : List (WindowOffset × Instr)),
      exec (.unusedOffsetAccess row.1 .read) s = exec row.2 s) ∧
    (∀ p : PortId,
      exec (.unusedOffsetAccess (0x0C4 + BitVec.ofNat 11 (16 * p.val)) .read) s = exec (.splitLowRead (.idleWord p)) s ∧
      exec (.unusedOffsetAccess (0x0C6 + BitVec.ofNat 11 (16 * p.val)) .read) s =
        exec (.splitHighRead (.idleWord p)) s) ∧
    (∀ page : BitVec 7,
      exec (.unusedOffsetAccess (0x200 + BitVec.ofNat 11 (4 * page.toNat)) .read) s =
        exec (.splitLowRead (.mapEntry page)) s ∧
      exec (.unusedOffsetAccess (0x202 + BitVec.ofNat 11 (4 * page.toNat)) .read) s =
        exec (.splitHighRead (.mapEntry page)) s) ∧
    (∀ w : BitVec 8,
      exec (.unusedOffsetAccess (0x400 + BitVec.ofNat 11 (4 * w.toNat)) .read) s =
        exec (.splitLowRead (.aperture w)) s ∧
      exec (.unusedOffsetAccess (0x402 + BitVec.ofNat 11 (4 * w.toNat)) .read) s =
        exec (.splitHighRead (.aperture w)) s) ∧
    (∀ offset : WindowOffset,
      exec (.unusedOffsetAccess (offset ||| 1) .read) s = exec (.unusedOffsetAccess (offset &&& 0x7FE) .read) s) ∧
    [LaneState.off, .idle, .active, .blocked, .waiting, .halted, .faulted].map LaneState.code = [0, 1, 2, 3, 4, 5, 6] ∧
    [Phase.load, .dispatch, .resolve, .transfer, .finish].map Phase.code = [0, 1, 2, 3, 4] ∧
    [none, some HaltReason.host, some .step, some .breakFlag].map HaltReason.code = [0, 1, 2, 3] ∧
    (∀ held, [none, some Resume.active, some (.blocked held), some .waiting].map Resume.code = [0, 1, 2, 3] ∧
      [none, some Resume.active, some (.blocked held), some .waiting].map Resume.held =
        [⟨false, false, false⟩, ⟨false, false, false⟩, held, ⟨false, false, false⟩]) ∧
    (∀ cause role, [none, some Deferred.halt, some .abort, some (.fault cause role)].map Deferred.code = [0, 1, 2, 3]) ∧
    [ResolveTarget.src, .dst, .link].map ResolveTarget.code = [0, 1, 2] ∧
    (∀ target, [CursorStatus.unset, .pending, .inFlight, .mapped target].map CursorStatus.code = [0, 1, 2, 3]) ∧
    [Role.walk, .hop, .src, .dst].map Role.code = [0, 1, 2, 3] ∧
    [EntryKind.post, .moveDone, .stop, .timeout].map EntryKind.code = [1, 2, 3, 4] ∧
    [FaultCause.badKind, .badField, .misaligned, .range, .unmapped, .denied, .noRight, .targetKind, .chainDepth,
      .nestedRepeat, .portOff].map FaultCause.code = [1, 2, 3, 4, 5, 6, 7, 8, 9, 10, 11] ∧
    [none, some BusCause.readOnly, some .activeTable, some .badLane, some .badTarget, some .periodLow, some .clearing,
      some .splitOrder, some .queueEmpty].map BusCause.code = [0, 1, 2, 3, 4, 5, 6, 7, 8] ∧
    [LaneResult.none, .accepted, .refusedState, .refusedArgument, .refusedClearing].map LaneResult.code =
      [0, 1, 2, 3, 4] ∧
    [CommandResult.none, .accepted, .refusedState, .refusedClearing, .refusedArgument].map CommandResult.code =
      [0, 1, 2, 3, 4]

/-- While RESET is asserted no event and no idle step changes the part, a read returns 0 and IRQ is low
(10_the_bus_window.md R171, assumption log 9, assumption log 13). -/
def Obligations.ResetHoldsThePart : Prop :=
  ∀ (s : State), s.resetPin = true →
    (∀ (c : Instr), isResetCommand c = false →
      exec c s = .next (if isHostRead c then { s with window := { s.window with readData := 0 } } else s)) ∧
    s.irq = false ∧
    (s.pending = [] → step s = .next s)

/-- RESET_ASSERT puts every piece of state at its device-reset value, and RESET_RELEASE begins a clear pass (R171, R46,
R67, R118, R130, R139, R143, R159, 10_the_bus_window.md, assumption log 9, assumption log 18, assumption log 22). -/
def Obligations.ResetAssertGivesDeviceResetValues : Prop :=
  ∀ (s : State),
    (Runs .resetAssert s fun t =>
      (∀ l, t.lane l =
        { state := .off, reasons := ⟨false, false, false⟩, portWait := none, phase := .load
          progress := ⟨0, none, .src, 0, 0, 0, 0, 0, 0⟩, repeatRecord := none, pendingPost := none, wait := none
          haltReason := none, resume := none, deferred := none, credit := 0, missed := 0, beats := 0
          config := ⟨3, false, false⟩, fault := none, walk := ⟨0, .unset⟩, hop := ⟨0, .unset⟩
          src := ⟨0, .unset⟩, dst := ⟨0, .unset⟩ }) ∧
      t.beat = none ∧
      t.wheel =
        { running := false, tableA := Vector.replicate 32 ⟨false, true, 0⟩
          tableB := Vector.replicate 32 ⟨false, true, 0⟩, active := .a, select := .a, position := 0
          rotation := 11, period := 256, timer := none, slotCount := 0, overruns := 0 } ∧
      t.map = ⟨Vector.replicate 128 ⟨false, .memory, false, false, 0, 0, 0⟩, [], none⟩ ∧
      t.signals = 0 ∧ t.queue = ⟨[], 0, 0⟩ ∧ t.ints = ⟨0, 0⟩ ∧
      (∀ p, t.port p =
        { rxEnable := false, txEnable := false, rxSignalEnable := false, txSignalEnable := false, rxSignal := 0
          txSignal := 0, rxMarkField := 15, txMark := 16, idleWord := 0, rxFifo := [], txFifo := [], overruns := 0
          underruns := 0, frameErrors := 0, overrunFlag := false, underrunFlag := false, frameErrorFlag := false
          inFrame := false, bits := 0, shiftWord := 0, received := 0, capture := false }) ∧
      t.window =
        { aperturePage := 0, readLatch := none, writeLatch := none, capture := ⟨none, 0, 0⟩, commandResult := .none
          laneSelect := 0, laneArgument := 0, laneResult := .none, recordIndex := 0
          readData := s.window.readData } ∧
      t.mem = s.mem ∧ t.clearing = false ∧ t.resetPin = true ∧ t.pending = s.pending) ∧
    (s.resetPin = true → exec .resetRelease s = .next { s with resetPin := false, clearing := true })

/-- SOFT_RESET sets lanes, queue, signals, wheel, ports and interrupts as the soft-reset tables say and keeps the rest
(R172, R46, R68, R119, R130, R139, R143, R160, assumption log 9, assumption log 18, assumption log 22). -/
def Obligations.SoftResetKeepsConfigurationAndMemory : Prop :=
  ∀ (s : State), s.resetPin = false →
    Runs .softReset s fun t =>
      (∀ l, t.lane l =
        { state := .off, reasons := ⟨false, false, false⟩, portWait := none, phase := .load
          progress := ⟨0, none, .src, 0, 0, 0, 0, 0, 0⟩, repeatRecord := none, pendingPost := none, wait := none
          haltReason := none, resume := none, deferred := none, credit := 0, missed := 0, beats := 0
          config := ⟨3, false, false⟩, fault := none, walk := ⟨0, .unset⟩, hop := ⟨0, .unset⟩
          src := ⟨0, .unset⟩, dst := ⟨0, .unset⟩ }) ∧
      t.beat = none ∧
      t.wheel = { s.wheel with
        running := false, active := s.wheel.select, position := 0, rotation := 11, timer := none, slotCount := 0
        overruns := 0 } ∧
      t.map = ⟨s.map.entries, [], none⟩ ∧ t.signals = 0 ∧ t.queue = ⟨[], 0, 0⟩ ∧ t.ints = ⟨0, s.ints.enable⟩ ∧
      (∀ p, t.port p = { s.port p with
        rxEnable := false, txEnable := false, rxFifo := [], txFifo := [], overruns := 0, underruns := 0
        frameErrors := 0, overrunFlag := false, underrunFlag := false, frameErrorFlag := false, shiftWord := 0
        capture := false }) ∧
      t.window =
        { aperturePage := s.window.aperturePage, readLatch := none, writeLatch := none, capture := ⟨none, 0, 0⟩
          commandResult := .accepted, laneSelect := 0, laneArgument := 0, laneResult := .none, recordIndex := 0
          readData := s.window.readData } ∧
      t.mem = s.mem ∧ t.clearing = s.clearing ∧ t.resetPin = false ∧ t.pending = s.pending

/-- ERASE begins a clear pass under its conditions, and the end of the pass leaves every word zero (R169, R170, assumption
log 2). -/
def Obligations.EraseAndTheClearPass : Prop :=
  ∀ (s : State), s.resetPin = false →
    (exec .erase s = .next
      (if s.clearing then setCommandResult s .refusedClearing
       else if s.wheel.running || s.beat.isSome then setCommandResult s .refusedState
       else setCommandResult { s with clearing := true } .accepted)) ∧
    (s.clearing = false → exec .clearPassEnd s = .next s) ∧
    (s.clearing = true → Runs .clearPassEnd s fun t =>
      (∀ page offset, t.readMem page offset = 0) ∧
        t = { s with clearing := false, mem := t.mem, ints := s.ints.setting 0x80 })

/-- WHEEL_START begins a fresh slot, WHEEL_STOP discards the partial one, and WHEEL_REWIND makes TABLE_SELECT active (R62,
R63, R64, assumption log 2, assumption log 13). -/
def Obligations.WheelStartStopAndRewind : Prop :=
  ∀ (s : State), s.resetPin = false →
    exec .wheelStart s = .next
      (if s.clearing then setCommandResult s .refusedClearing
       else if s.wheel.running then setCommandResult s .refusedState
       else setCommandResult
        { s with wheel := { s.wheel with running := true, timer := some ⟨s.wheel.period.toNat, 0⟩ } } .accepted) ∧
    exec .wheelStop s = .next
      (if s.wheel.running then
        setCommandResult { s with wheel := { s.wheel with running := false, timer := none } } .accepted
       else setCommandResult s .refusedState) ∧
    (s.wheel.running = true → Runs .wheelStop s fun t =>
      exec .slotTick t = .next t ∧ (∀ l, exec (.waitTimeout l) t = .next t) ∧ (t.pending = [] → step t = .next t)) ∧
    exec .wheelRewind s = .next
      (if s.wheel.running then setCommandResult s .refusedState
       else setCommandResult { s with wheel := { s.wheel with active := s.wheel.select, position := 0 } } .accepted) ∧
    (s.wheel.running = false → Runs .wheelRewind s fun t => t.wheel.swapPending = false ∧ t.ints = s.ints)

/-- A command code that names none is answered REFUSED_ARGUMENT, and lane 12 to 15 of LANE_COMMAND is refused BAD_LANE
(R26, R166, R168). -/
def Obligations.CommandFieldsThatNameNothingAreAnswered : Prop :=
  ∀ (s : State), s.resetPin = false →
    (∀ (lane : BitVec 4) (code : BitVec 3), lane.toNat < 12 → code = 0 ∨ code = 7 →
      exec (.laneCommandUnknown lane code) s = .next (setLaneResult s .refusedArgument)) ∧
    (∀ (code : BitVec 4), code = 0 ∨ 5 < code.toNat →
      exec (.globalCommandUnknown code) s = .next (setCommandResult s .refusedArgument)) ∧
    (∀ (lane : BitVec 4) (code : BitVec 3), 12 ≤ lane.toNat →
      ∀ c ∈ ([.enable lane, .disable lane, .start lane, .halt lane, .resume lane, .abort lane,
        .laneCommandUnknown lane code] : List Instr),
      exec c s = .next { s with
        window := { s.window with capture := s.window.capture.take .badLane 0x060 }, ints := s.ints.setting 0x40 })

/-- The refusal capture records the first refusal, counts later ones up to 255, and is emptied by ACCESS and by both
resets (R167). -/
def Obligations.RefusalCaptureHoldsTheFirstRefusal : Prop :=
  ∀ (s : State), s.resetPin = false →
    (∀ (cause : BusCause) (offset : WindowOffset),
      (s.window.capture.count = 0 → (s.refuse cause offset).window.capture = ⟨some cause, offset, 1⟩) ∧
      (s.window.capture.count ≠ 0 → (s.refuse cause offset).window.capture =
        ⟨s.window.capture.cause, s.window.capture.offset,
          if s.window.capture.count = 255 then 255 else s.window.capture.count + 1⟩)) ∧
    (∀ (v : Half), Runs (.intStatusWrite v) s fun t =>
      t.window.capture = if v.getLsbD 6 then ⟨none, 0, 0⟩ else s.window.capture) ∧
    (Runs .softReset s fun t => t.window.capture = ⟨none, 0, 0⟩) ∧
    (Runs .resetAssert s fun t => t.window.capture = ⟨none, 0, 0⟩) ∧
    (∀ (v : Half) (offset : WindowOffset), offset ∈ ([0x028, 0x02A, 0x02C] : List WindowOffset) →
      exec (.registerWrite offset v) s = .next (s.refuse .readOnly offset))

/-- ENABLE takes an OFF lane to IDLE, from which it accepts START, and changes nothing else of it (R27). -/
def Obligations.EnableTakesAnOffLaneToIdle : Prop :=
  ∀ (s : State) (lane : BitVec 4) (l : LaneId), s.resetPin = false → laneOfField lane = some l →
    ((s.lane l).state = .off →
      exec (.enable lane) s = .next (setLaneResult (s.setLane l { s.lane l with state := .idle }) .accepted)) ∧
    ((s.lane l).state = .off → s.clearing = false → s.window.laneArgument.getLsbD 15 = false →
      s.window.laneArgument.extractLsb' 0 2 = 0 →
      Runs (.enable lane) s fun t => Runs (.start lane) t fun u => u.window.laneResult = .accepted) ∧
    ((s.lane l).state ≠ .off → exec (.enable lane) s = .next (setLaneResult s .refusedState))

/-- DISABLE takes an IDLE, HALTED or FAULTED lane to OFF with its context cleared and its cursors released (R28, R177,
assumption log 25). -/
def Obligations.DisableClearsTheLane : Prop :=
  ∀ (s : State) (lane : BitVec 4) (l : LaneId), s.resetPin = false → laneOfField lane = some l → s.lookupsSound →
    ((s.lane l).state = .idle ∨ (s.lane l).state = .halted ∨ (s.lane l).state = .faulted →
      exec (.disable lane) s = .next { s.setLane l ((s.lane l).clearedTo .off ⟨3, false, false⟩) with
        map := s.map.without l
        window := { s.window with
          laneResult := .accepted
          recordIndex := s.window.indexAfter l (s.lane l).progress.current.isSome } }) ∧
    ((s.lane l).state = .idle ∨ (s.lane l).state = .halted ∨ (s.lane l).state = .faulted →
      Runs (.disable lane) s fun t =>
        (itemRead t .laneFaultSummary).getLsbD l.val = false ∧ (itemRead t .laneHaltSummary).getLsbD l.val = false ∧
        ∀ k, t.map.lookup = some k → k.lane = l →
          exec .lookupCompletion t = .next { t with map := { t.map with lookup := none } }) ∧
    ((s.lane l).state = .off ∨ (s.lane l).state = .active ∨ (s.lane l).state = .blocked ∨
        (s.lane l).state = .waiting →
      exec (.disable lane) s = .next (setLaneResult s .refusedState)) ∧
    ((s.lane l).state = .off → s.ready l = false)

/-- ABORT clears any lane but an OFF one into IDLE, or is held as the deferred request during the lane's beat (R32, R33,
R177, assumption log 25). -/
def Obligations.AbortLeavesTheLaneIdle : Prop :=
  ∀ (s : State) (lane : BitVec 4) (l : LaneId), s.resetPin = false → laneOfField lane = some l → s.lookupsSound →
    ((s.lane l).state = .off → exec (.abort lane) s = .next (setLaneResult s .refusedState)) ∧
    ((s.lane l).state = .active → s.ownBeat l = true → exec (.abort lane) s =
      .next (setLaneResult (s.setLane l { s.lane l with deferred := some .abort }) .accepted)) ∧
    ((s.lane l).state ≠ .off → ((s.lane l).state = .active → s.ownBeat l = false) →
      exec (.abort lane) s = .next { s.setLane l ((s.lane l).clearedTo .idle (s.lane l).config) with
        map := s.map.without l
        window := { s.window with
          laneResult := .accepted
          recordIndex := s.window.indexAfter l (s.lane l).progress.current.isSome } })

/-- START examines state, clear pass and argument in this order, and else leaves the lane BLOCKED on its WALK lookup
(R29). -/
def Obligations.StartBeginsAWorkList : Prop :=
  ∀ (s : State) (lane : BitVec 4) (l : LaneId), s.resetPin = false → laneOfField lane = some l → s.lookupsSound →
    ((s.lane l).state ≠ .idle → exec (.start lane) s = .next (setLaneResult s .refusedState)) ∧
    ((s.lane l).state = .idle → s.clearing = true →
      exec (.start lane) s = .next (setLaneResult s .refusedClearing)) ∧
    ((s.lane l).state = .idle → s.clearing = false →
      (s.window.laneArgument.getLsbD 15 = true ∨ s.window.laneArgument.getLsbD 1 = true ∨
        s.window.laneArgument.getLsbD 0 = true) →
      exec (.start lane) s = .next (setLaneResult s .refusedArgument)) ∧
    ((s.lane l).state = .idle → s.clearing = false → s.window.laneArgument.getLsbD 15 = false →
      s.window.laneArgument.getLsbD 1 = false → s.window.laneArgument.getLsbD 0 = false →
      exec (.start lane) s = .next (setLaneResult
        { s.setLane l { s.lane l with
            state := .blocked, reasons := ⟨true, false, false⟩, phase := .load
            progress := ⟨s.window.laneArgument.setWidth 15, (s.lane l).progress.current, .src, 0, 0, 0, 0, 0, 0⟩
            walk := ⟨LAddr.page (s.window.laneArgument.setWidth 15), .pending⟩ } with
          map := { s.map with queue := s.map.queue ++ [(l, .walk)] } } .accepted))

/-- HALT is refused, taken at once with HOST as reason, or held as the deferred request, by state and beat (R30). -/
def Obligations.HaltStopsALaneBetweenBeats : Prop :=
  ∀ (s : State) (lane : BitVec 4) (l : LaneId), s.resetPin = false → laneOfField lane = some l →
    ((s.lane l).deferred.isSome = true ∨ (s.lane l).state = .off ∨ (s.lane l).state = .idle ∨
        (s.lane l).state = .halted ∨ (s.lane l).state = .faulted →
      exec (.halt lane) s = .next (setLaneResult s .refusedState)) ∧
    ((s.lane l).deferred = none → (s.lane l).state = .active → s.ownBeat l = true → exec (.halt lane) s =
      .next (setLaneResult (s.setLane l { s.lane l with deferred := some .halt }) .accepted)) ∧
    ((s.lane l).deferred = none →
      ((s.lane l).state = .active ∧ s.ownBeat l = false) ∨ (s.lane l).state = .blocked ∨
        (s.lane l).state = .waiting →
      exec (.halt lane) s = .next (setLaneResult
        { s.setLane l { s.lane l with
            state := .halted, haltReason := some .host
            resume := some
              (if (s.lane l).state = .active then .active
               else if (s.lane l).state = .blocked then .blocked (s.lane l).reasons
               else .waiting)
            reasons := ⟨false, false, false⟩, credit := 0 } with ints := s.ints.setting 0x04 } .accepted) ∧
      Runs (.halt lane) s fun t => (itemRead t .laneHaltSummary).getLsbD l.val = true)

/-- RESUME restarts a HALTED lane from its resume state as its cursors, held reasons and the signals stand (R31, R36,
R129, R16, R41, R177, assumption log 11, assumption log 25). -/
def Obligations.ResumeReevaluatesTheResumeState : Prop :=
  ∀ (s : State) (lane : BitVec 4) (l : LaneId), s.resetPin = false → laneOfField lane = some l → s.lookupsSound →
    ((s.lane l).state ≠ .halted → exec (.resume lane) s = .next (setLaneResult s .refusedState)) ∧
    ((s.lane l).state = .halted → (s.lane l).resume = some .active → exec (.resume lane) s = .next (setLaneResult
      (s.setLane l ({ s.lane l with haltReason := none, resume := none } : Lane).enterActive) .accepted)) ∧
    ((s.lane l).state = .halted → ∀ held, (s.lane l).resume = some (.blocked held) →
      exec (.resume lane) s = .next (setLaneResult (s.setLane l
        (if held.port || held.queue || !(s.lane l).neededMapped then
          { s.lane l with
            haltReason := none, resume := none, state := .blocked
            reasons := ⟨!(s.lane l).neededMapped, held.port, held.queue⟩ }
         else
          { s.lane l with
            haltReason := none, resume := none, state := .active, reasons := ⟨false, false, false⟩ }))
        .accepted)) ∧
    ((s.lane l).state = .halted → (s.lane l).resume = some .waiting → ∀ w, (s.lane l).wait = some w →
      (s.signals &&& w.mask = 0 → exec (.resume lane) s = .next (setLaneResult
        (s.setLane l { s.lane l with haltReason := none, resume := none, state := .waiting }) .accepted)) ∧
      (∀ n : SignalId, (s.signals &&& w.mask).getLsbD n.val = true →
        (∀ m : SignalId, m < n → (s.signals &&& w.mask).getLsbD m.val = false) → Runs (.resume lane) s fun t =>
        t.lane l = ({ s.lane l with haltReason := none, resume := none } : Lane).afterWait ∧
        OtherLanesKept s t l ∧
        t.signals = (if w.consume then s.signals &&& ~~~ (BitVec.twoPow 16 n.val) else s.signals) ∧
        t.map.entries = s.map.entries ∧
        ((s.lane l).progress.pointer ≠ 0x7FFC → t.map.queue = s.map.queue ++
          (s.lane l).walk.appended l .walk ((s.lane l).progress.pointer + 4).page) ∧
        t.ints =
          (if (s.lane l).progress.pointer = 0x7FFC then s.ints.setting 0x02
           else if (s.lane l).config.step then s.ints.setting 0x04 else s.ints) ∧
        t.window = { s.window with
          laneResult := .accepted
          recordIndex := s.window.indexAfter l (s.lane l).progress.current.isSome } ∧
        t = { s with lanes := t.lanes, map := t.map, signals := t.signals, ints := t.ints, window := t.window }))

/-- A RECORD_POINTER write redirects a HALTED lane, and is refused in any other state or with a bad value (R39, R177,
assumption log 25, assumption log 29). -/
def Obligations.RecordPointerWriteRedirectsAHaltedLane : Prop :=
  ∀ (s : State) (v : Half), s.resetPin = false → s.lookupsSound →
    ((s.lane s.window.laneSelect).state ≠ .halted →
      exec (.recordPointerWrite v) s = .next (s.refuse .readOnly 0x074)) ∧
    ((s.lane s.window.laneSelect).state = .halted →
      (v.getLsbD 15 = true ∨ v.getLsbD 1 = true ∨ v.getLsbD 0 = true) →
      exec (.recordPointerWrite v) s = .next (s.refuse .badTarget 0x074)) ∧
    ((s.lane s.window.laneSelect).state = .halted →
      v.getLsbD 15 = false → v.getLsbD 1 = false → v.getLsbD 0 = false →
      Runs (.recordPointerWrite v) s fun t =>
        t.lane s.window.laneSelect = { s.lane s.window.laneSelect with
          phase := .load, progress := ⟨v.setWidth 15, none, .src, 0, 0, 0, 0, 0, 0⟩, pendingPost := none
          wait := none, repeatRecord := none, portWait := none, haltReason := some .host, resume := some .active
          walk := (s.lane s.window.laneSelect).walk.retargeted (LAddr.page (v.setWidth 15))
          hop := ⟨0, .unset⟩, src := ⟨0, .unset⟩, dst := ⟨0, .unset⟩ } ∧
        OtherLanesKept s t s.window.laneSelect ∧
        t.map.entries = s.map.entries ∧
        t.map.queue = (s.map.queue.filter fun q => !(q.1 == s.window.laneSelect && q.2 != .walk)) ++
          (s.lane s.window.laneSelect).walk.appended s.window.laneSelect .walk (LAddr.page (v.setWidth 15)) ∧
        t.map.lookup = (s.map.lookup.map fun k =>
          if k.lane = s.window.laneSelect ∧ k.role ≠ .walk then { k with disposition := .abandoned }
          else if k.lane = s.window.laneSelect ∧ (s.lane s.window.laneSelect).walk.status = .inFlight ∧
            (s.lane s.window.laneSelect).walk.page ≠ LAddr.page (v.setWidth 15) then
            { k with disposition := k.disposition.toStale }
          else k) ∧
        t.window = { s.window with
          recordIndex := s.window.indexAfter s.window.laneSelect
            (s.lane s.window.laneSelect).progress.current.isSome } ∧
        t = { s with lanes := t.lanes, map := t.map, window := t.window })

/-- LANE_CONFIG takes its fields in every state, LANE_SELECT takes lanes 0 to 11 only, and RECORD_WORDS returns the copy
(R40, R44, R177, assumption log 9). -/
def Obligations.LaneConfigurationSelectionAndRecordWords : Prop :=
  ∀ (s : State) (v : Half), s.resetPin = false →
    (exec (.laneConfigWrite v) s = .next (s.setLane s.window.laneSelect { s.lane s.window.laneSelect with
      config := ⟨v.extractLsb' 0 4, v.getLsbD 4, v.getLsbD 5⟩ })) ∧
    (∀ l : LaneId, (v.extractLsb' 0 4).toNat = l.val → exec (.laneSelectWrite v) s =
      .next { s with window := { s.window with laneSelect := l, recordIndex := 0 } }) ∧
    (12 ≤ (v.extractLsb' 0 4).toNat → exec (.laneSelectWrite v) s = .next (s.refuse .badLane 0x066)) ∧
    exec .recordWordsRead s = .next { s with window := { s.window with
      readData := match (s.lane s.window.laneSelect).progress.current, s.window.recordIndex.toNat with
        | none, _ => 0
        | some r, 0 => r.word0.extractLsb' 0 16
        | some r, 1 => r.word0.extractLsb' 16 16
        | some r, 2 => r.word1.extractLsb' 0 16
        | some r, 3 => r.word1.extractLsb' 16 16
        | some r, 4 => r.word2.extractLsb' 0 16
        | some r, 5 => r.word2.extractLsb' 16 16
        | some r, 6 => r.word3.extractLsb' 0 16
        | some r, _ => r.word3.extractLsb' 16 16
      recordIndex := if s.window.recordIndex = 7 then 0 else s.window.recordIndex + 1 } }

/-- A schedule write reaches the standby table only, SLOT_PERIOD takes values from 8, and TABLE_SELECT takes bit 0 (R48,
R51, R61, R175). -/
def Obligations.WheelItemWrites : Prop :=
  ∀ (s : State) (table : Table) (e : Fin 32) (v : Half), s.resetPin = false →
    (table = s.wheel.active → exec (.scheduleEntryWrite table e v) s =
      .next (s.refuse .activeTable (scheduleOffset table e))) ∧
    (table ≠ s.wheel.active → v.getLsbD 14 = false → 12 ≤ (v.extractLsb' 0 4).toNat →
      exec (.scheduleEntryWrite table e v) s = .next (s.refuse .badLane (scheduleOffset table e))) ∧
    (table ≠ s.wheel.active → v.getLsbD 14 = true ∨ (v.extractLsb' 0 4).toNat < 12 →
      Runs (.scheduleEntryWrite table e v) s fun t =>
        (t.wheel.table table).get e = ⟨v.getLsbD 15, v.getLsbD 14, v.extractLsb' 0 4⟩ ∧
        (∀ f : Fin 32, f ≠ e → (t.wheel.table table).get f = (s.wheel.table table).get f) ∧
        t.wheel.table s.wheel.active = s.wheel.table s.wheel.active ∧
        t = { s with wheel := { s.wheel with tableA := t.wheel.tableA, tableB := t.wheel.tableB } }) ∧
    (scheduleOffset .a e).toNat = 0x100 + 2 * e.val ∧ (scheduleOffset .b e).toNat = 0x140 + 2 * e.val ∧
    (8 ≤ v.toNat → exec (.slotPeriodWrite v) s = .next { s with wheel := { s.wheel with period := v } }) ∧
    (v.toNat < 8 → exec (.slotPeriodWrite v) s = .next (s.refuse .periodLow 0x044)) ∧
    exec (.tableSelectWrite v) s =
      .next { s with wheel := { s.wheel with select := if v.getLsbD 0 then .b else .a } }

/-- A low-half read latches the high half with the item's tag, and a high-half read returns it while the tag names the
item (R163, R165, R166, R102, R175, assumption log 9). -/
def Obligations.SplitReadsLatchTheHighHalf : Prop :=
  ∀ (s : State) (item : Item32), s.resetPin = false →
    (refusedClearing s item = false → exec (.splitLowRead item) s = .next { s with window := { s.window with
      readLatch := some ⟨(item32Value s item).extractLsb' 16 16, item32Tag s item⟩
      readData := (item32Value s item).extractLsb' 0 16 } }) ∧
    (refusedClearing s item = false → ∀ k, s.window.readLatch = some k → k.tag = item32Tag s item →
      exec (.splitHighRead item) s = .next { s with window := { s.window with readData := k.value } }) ∧
    (refusedClearing s item = false → (∀ k, s.window.readLatch = some k → k.tag ≠ item32Tag s item) →
      exec (.splitHighRead item) s =
        .next { s with window := { s.window with readData := (item32Value s item).extractLsb' 16 16 } }) ∧
    (refusedClearing s item = true →
      exec (.splitLowRead item) s = .next (returnData (s.refuse .clearing (item32Offset item .low)) 0) ∧
      exec (.splitHighRead item) s = .next (returnData (s.refuse .clearing (item32Offset item .high)) 0)) ∧
    item32Value s .slotCount = s.wheel.slotCount ∧ item32Tag s .slotCount = .slotCount ∧
    item32Value s .beats = (s.lane s.window.laneSelect).beats ∧ item32Tag s .beats = .beats s.window.laneSelect ∧
    (∀ p, item32Value s (.idleWord p) = (s.port p).idleWord ∧ item32Tag s (.idleWord p) = .idleWord p) ∧
    (∀ page, item32Tag s (.mapEntry page) = .mapEntry page ∧ ∀ e, e = s.mapEntry page →
      item32Value s (.mapEntry page) =
        BitVec.ofBool e.valid ++ (0 : BitVec 1) ++
          (if e.kind = .memory then 0 else if e.kind = .portRx then 1 else 2 : BitVec 2) ++ BitVec.ofBool e.read ++
          BitVec.ofBool e.write ++ BitVec.ofNat 2 e.port.val ++ (0 : BitVec 2) ++ e.page ++ (0 : BitVec 4) ++ e.mask) ∧
    ((∀ w, item ≠ .aperture w) → refusedClearing s item = false) ∧
    (∀ (w : BitVec 8), item32Value s (.aperture w) = s.readMem s.window.aperturePage w ∧
      refusedClearing s (.aperture w) = s.clearing ∧
      item32Tag s (.aperture w) = .physical s.window.aperturePage w)

/-- A low-half write loads the write latch only, and a matching aperture high-half write writes one whole word (R162,
R164, R165, R166). -/
def Obligations.SplitWritesReachMemoryWholeOrNotAtAll : Prop :=
  ∀ (s : State) (item : Item32) (w : BitVec 8) (v : Half), s.resetPin = false → s.memoryCanonical →
    (item = .slotCount ∨ item = .beats →
      exec (.splitLowWrite item v) s = .next (s.refuse .readOnly (item32Offset item .low))) ∧
    (refusedClearing s item = true →
      exec (.splitLowWrite item v) s = .next (s.refuse .clearing (item32Offset item .low))) ∧
    (item ≠ .slotCount → item ≠ .beats → refusedClearing s item = false → exec (.splitLowWrite item v) s =
      .next { s with window := { s.window with writeLatch := some ⟨v, item32Tag s item⟩ } }) ∧
    (s.clearing = true → exec (.apertureWordCommit w v) s =
      .next (s.refuse .clearing (item32Offset (.aperture w) .high))) ∧
    (s.clearing = false →
      (∀ k, s.window.writeLatch = some k → k.tag ≠ .physical s.window.aperturePage w) →
      exec (.apertureWordCommit w v) s = .next (s.refuse .splitOrder (item32Offset (.aperture w) .high))) ∧
    (exec (.aperturePageWrite v) s =
      .next { s with window := { s.window with aperturePage := v.extractLsb' 0 6 } }) ∧
    (s.clearing = false → ∀ low, s.window.writeLatch = some ⟨low, .physical s.window.aperturePage w⟩ →
      Runs (.apertureWordCommit w v) s fun t =>
        t.readMem s.window.aperturePage w = v ++ low ∧
        (∀ page offset, (page, offset) ≠ (s.window.aperturePage, w) →
          t.readMem page offset = s.readMem page offset) ∧
        t = { s with mem := t.mem, window := { s.window with writeLatch := none } }) ∧
    (item32Offset (.aperture w) .high).toNat = 0x400 + 4 * w.toNat + 2

/-- An accepted map entry write sets the entry and re-pends every cursor MAPPED on its page, in lane and role order (R103,
R112, R113, R114, R164, R25). -/
def Obligations.MapEntryCommitRunsTheShootdown : Prop :=
  ∀ (s : State) (page : BitVec 7) (v : Half), s.resetPin = false →
    ((∀ k, s.window.writeLatch = some k → k.tag ≠ .mapEntry page) → exec (.mapEntryCommit page v) s =
      .next (s.refuse .splitOrder (item32Offset (.mapEntry page) .high))) ∧
    (∀ low, s.window.writeLatch = some ⟨low, .mapEntry page⟩ → v.extractLsb' 12 2 = 3 →
      exec (.mapEntryCommit page v) s = .next (s.refuse .badTarget (item32Offset (.mapEntry page) .high))) ∧
    (∀ low, s.window.writeLatch = some ⟨low, .mapEntry page⟩ → v.extractLsb' 12 2 ≠ 3 →
      Runs (.mapEntryCommit page v) s fun t =>
        t.mapEntry page =
          { valid := v.getLsbD 15
            kind := if v.extractLsb' 12 2 = 0 then .memory else if v.extractLsb' 12 2 = 1 then .portRx else .portTx
            read := v.getLsbD 11, write := v.getLsbD 10, port := (v.extractLsb' 8 2).toFin
            page := v.extractLsb' 0 6, mask := low.extractLsb' 0 12 } ∧
        (∀ q, q ≠ page → t.mapEntry q = s.mapEntry q) ∧
        (∀ l, t.lane l = (s.lane l).shot page (s.ownBeat l)) ∧
        t.map.queue = s.map.queue ++ allLanes.flatMap (fun l => (s.lane l).shotCursors l page) ∧
        t.map.lookup = (s.map.lookup.map fun k =>
          if k.page = page ∨ (((s.lane k.lane).cursor k.role).status = .inFlight ∧
            ((s.lane k.lane).cursor k.role).page = page) then { k with disposition := k.disposition.toStale }
          else k) ∧
        t = { s with lanes := t.lanes, map := t.map, window := { s.window with writeLatch := none } })

/-- A signal that goes from clear to set wakes its non-consuming waiters and the lowest-numbered consuming one (R120,
R121, R124, R125, R16, R36, assumption log 12, assumption log 11). -/
def Obligations.SignalSetWakesItsWaiters : Prop :=
  ∀ (s : State) (v : Half) (n : SignalId), s.resetPin = false → s.lookupsSound →
    (v = 0 → exec (.signalSet v) s = .next s) ∧
    (v.getLsbD n.val = true → (∀ m : SignalId, m < n → v.getLsbD m.val = false) →
      Runs (.signalSet (BitVec.twoPow 16 n.val)) s fun t =>
        exec (.signalSet v) s = exec (.signalSet (v &&& ~~~ (BitVec.twoPow 16 n.val))) t) ∧
    (s.signals.getLsbD n.val = true → exec (.signalSet (BitVec.twoPow 16 n.val)) s = .next s) ∧
    (∀ l, l ∈ wokenBy s n ↔ isWaiter s n l = true ∧
      (consumes s l = false ∨ ∀ k, isWaiter s n k = true → consumes s k = true → l ≤ k)) ∧
    (s.signals.getLsbD n.val = false → Runs (.signalSet (BitVec.twoPow 16 n.val)) s fun t =>
      (∀ l, t.lane l = if l ∈ wokenBy s n then (s.lane l).afterWait else s.lane l) ∧
      t.signals = (if ∃ l, isWaiter s n l = true ∧ consumes s l = true then s.signals
        else s.signals ||| BitVec.twoPow 16 n.val) ∧
      t.map.entries = s.map.entries ∧
      ((∀ l, l ∈ wokenBy s n → (s.lane l).progress.pointer ≠ 0x7FFC) →
        t.map.queue = s.map.queue ++ (wokenBy s n).flatMap fun l =>
          (s.lane l).walk.appended l .walk ((s.lane l).progress.pointer + 4).page) ∧
      t.ints = s.ints.setting
        ((if ∃ l, l ∈ wokenBy s n ∧ (s.lane l).progress.pointer = 0x7FFC then 0x02 else 0) |||
          (if ∃ l, l ∈ wokenBy s n ∧ (s.lane l).progress.pointer ≠ 0x7FFC ∧ (s.lane l).config.step = true then 0x04
           else 0)) ∧
      t.window = { s.window with recordIndex := t.window.recordIndex } ∧
      t = { s with lanes := t.lanes, map := t.map, signals := t.signals, ints := t.ints, window := t.window })

/-- SIGNAL_CLEAR, QUEUE_THRESHOLD, INT_STATUS and INT_ENABLE writes take their bits, and IRQ follows status and enable
(R120, R122, R138, R141, R142). -/
def Obligations.SignalClearThresholdAndInterruptWrites : Prop :=
  ∀ (s : State) (v : Half), s.resetPin = false →
    (Runs (.signalClear v) s fun t =>
      (∀ n : SignalId, t.signals.getLsbD n.val = (s.signals.getLsbD n.val && !v.getLsbD n.val)) ∧
      t = { s with signals := t.signals }) ∧
    (exec (.queueThresholdWrite v) s =
      .next { s with queue := { s.queue with thresholdField := v.extractLsb' 0 5 } }) ∧
    (Runs (.intStatusWrite v) s fun t =>
      (∀ i : Fin 8, t.ints.status.getLsbD i.val = (s.ints.status.getLsbD i.val && !v.getLsbD i.val)) ∧
      t = { s with
        ints := { s.ints with status := t.ints.status }
        window := { s.window with
          capture := if v.getLsbD 6 then ⟨none, 0, 0⟩ else s.window.capture } }) ∧
    (exec (.intEnableWrite v) s = .next { s with ints := { s.ints with enable := v.extractLsb' 0 8 } }) ∧
    (s.irq = true ↔ ∃ i : Fin 8, s.ints.status.getLsbD i.val = true ∧ s.ints.enable.getLsbD i.val = true)

/-- QUEUE_POP removes the oldest entry and releases every lane that holds QUEUE, and an empty queue refuses it (R136). -/
def Obligations.QueuePopReleasesEveryLaneThatHoldsQueue : Prop :=
  ∀ (s : State) (v : Half), s.resetPin = false →
    (s.queue.entries = [] → exec (.queuePop v) s = .next (s.refuse .queueEmpty 0x0AE)) ∧
    (∀ e rest, s.queue.entries = e :: rest → Runs (.queuePop v) s fun t =>
      t.queue = { s.queue with entries := rest } ∧
      (∀ l, t.lane l = if holdsReason (s.lane l) Reasons.queue then
          (s.lane l).losing fun h => { h with queue := false }
        else s.lane l) ∧
      t = { s with lanes := t.lanes, queue := t.queue })

/-- Enables, idle word, status and counter writes of a port set their fields and touch nothing else (R149, R151, R157,
R158, R164, assumption log 15). -/
def Obligations.PortWritesThatDisableNothing : Prop :=
  ∀ (s : State) (p : PortId) (v : Half), s.resetPin = false →
    (((s.port p).txEnable = true → v.getLsbD 1 = true) → Runs (.portRxEnable p v) s fun t =>
      t.port p = (s.port p).configured (v ||| 1) ∧ (t.port p).rxEnable = true ∧ OtherPortsKept s t p ∧
        t = { s with ports := t.ports }) ∧
    (((s.port p).rxEnable = true → v.getLsbD 0 = true) → Runs (.portTxEnable p v) s fun t =>
      t.port p = (s.port p).configured (v ||| 2) ∧ (t.port p).txEnable = true ∧ OtherPortsKept s t p ∧
        t = { s with ports := t.ports }) ∧
    (∀ low, s.window.writeLatch = some ⟨low, .idleWord p⟩ → Runs (.portIdleWordCommit p v) s fun t =>
      t.port p = { s.port p with idleWord := v ++ low } ∧ OtherPortsKept s t p ∧
        t = { s with ports := t.ports, window := { s.window with writeLatch := none } }) ∧
    ((∀ k, s.window.writeLatch = some k → k.tag ≠ .idleWord p) → exec (.portIdleWordCommit p v) s =
      .next (s.refuse .splitOrder (item32Offset (.idleWord p) .high))) ∧
    (Runs (.portStatusWrite p v) s fun t =>
      t.port p = { s.port p with
        overrunFlag := (s.port p).overrunFlag && !v.getLsbD 0
        underrunFlag := (s.port p).underrunFlag && !v.getLsbD 1
        frameErrorFlag := (s.port p).frameErrorFlag && !v.getLsbD 2 } ∧
      OtherPortsKept s t p ∧ t = { s with ports := t.ports }) ∧
    (∀ c : PortCounter, Runs (.portCounterWrite p c v) s fun t =>
      t.port p = { s.port p with
        overruns := if c = .overruns then 0 else (s.port p).overruns
        underruns := if c = .underruns then 0 else (s.port p).underruns
        frameErrors := if c = .frameErrors then 0 else (s.port p).frameErrors } ∧
      OtherPortsKept s t p ∧ t = { s with ports := t.ports })

/-- A disable empties the direction's FIFO, ends its part of a frame and faults every lane whose port wait names it (R152,
R41, R83, assumption log 15, assumption log 32). -/
def Obligations.PortDisablesEmptyAndFault : Prop :=
  ∀ (s : State) (p : PortId) (v : Half), s.resetPin = false → s.lanesConsistent → s.lookupsSound →
    (((s.port p).txEnable = true → v.getLsbD 1 = true) →
      ((s.port p).rxEnable = true → Runs (.portRxDisable p v) s fun t =>
        t.port p = { (s.port p).configured (v &&& 0xFFFE) with rxFifo := [], capture := false } ∧
        OtherPortsKept s t p ∧
        (∀ l, t.lane l = if (s.lane l).portWait = some ⟨p, .rx⟩ then
            (s.lane l).faultedWith ⟨.portOff, (s.lane l).progress.pointer, (s.lane l).progress.sourcePosition, .src,
              (s.lane l).progress.hopCount⟩
          else s.lane l) ∧
        t.ints = (if ∃ l, (s.lane l).portWait = some ⟨p, .rx⟩ then s.ints.setting 0x02 else s.ints) ∧
        t.map.entries = s.map.entries ∧
        t = { s with lanes := t.lanes, ports := t.ports, map := t.map, ints := t.ints }) ∧
      ((s.port p).rxEnable = false → Runs (.portRxDisable p v) s fun t =>
        t.port p = (s.port p).configured (v &&& 0xFFFE) ∧ OtherPortsKept s t p ∧ t = { s with ports := t.ports })) ∧
    (((s.port p).rxEnable = true → v.getLsbD 0 = true) →
      ((s.port p).txEnable = true → Runs (.portTxDisable p v) s fun t =>
        t.port p = { (s.port p).configured (v &&& 0xFFFD) with txFifo := [], shiftWord := 0 } ∧
        OtherPortsKept s t p ∧
        (∀ l, t.lane l = if (s.lane l).portWait = some ⟨p, .tx⟩ then
            (s.lane l).faultedWith ⟨.portOff, (s.lane l).progress.pointer, (s.lane l).progress.destinationPosition,
              .dst, (s.lane l).progress.hopCount⟩
          else s.lane l) ∧
        t.ints = (if ∃ l, (s.lane l).portWait = some ⟨p, .tx⟩ then s.ints.setting 0x02 else s.ints) ∧
        t.beat = (s.beat.map fun b => { b with work := b.work.discarding p }) ∧
        t.map.entries = s.map.entries ∧
        t = { s with lanes := t.lanes, ports := t.ports, map := t.map, ints := t.ints, beat := t.beat }) ∧
      ((s.port p).txEnable = false → Runs (.portTxDisable p v) s fun t =>
        t.port p = (s.port p).configured (v &&& 0xFFFD) ∧ OtherPortsKept s t p ∧ t = { s with ports := t.ports })) ∧
    (v.getLsbD 1 = false → (s.port p).txEnable = true → Runs (.portRxDisable p (v ||| 2)) s fun t =>
      exec (.portRxDisable p v) s = exec (.portTxDisable p (v &&& 0xFFFE)) t) ∧
    (v.getLsbD 0 = false → exec (.portTxDisable p v) s = exec (.portRxDisable p (v &&& 0xFFFD)) s) ∧
    (v.getLsbD 1 = false → exec (.portRxEnable p v) s = exec (.portTxDisable p (v ||| 1)) s) ∧
    (v.getLsbD 0 = false → exec (.portTxEnable p v) s = exec (.portRxDisable p (v ||| 2)) s)

/-- A write by offset stores LANE_ARGUMENT and PORT_MARKS, is refused at a read-only item, and is else that item's command
(R174, R175, R149, R166, R48, R164, R168, R26, 11_register_and_format_reference.md 11.1, 11.3 to 11.7, assumption log
16). -/
def Obligations.RegisterWritesByOffset : Prop :=
  ∀ (s : State) (v : Half), s.resetPin = false →
    (exec (.registerWrite 0x062 v) s = .next { s with window := { s.window with laneArgument := v } }) ∧
    (∀ p : PortId, Runs (.registerWrite (0x0C2 + BitVec.ofNat 11 (16 * p.val)) v) s fun t =>
      t.port p = { s.port p with rxMarkField := v.extractLsb' 0 5, txMark := v.extractLsb' 8 5 } ∧
      OtherPortsKept s t p ∧ t = { s with ports := t.ports }) ∧
    (∀ offset ∈ ([0x000, 0x002, 0x004, 0x010, 0x014, 0x028, 0x02A, 0x02C, 0x030, 0x040, 0x046, 0x048, 0x04A, 0x04C,
        0x064, 0x068, 0x06A, 0x070, 0x072, 0x078, 0x07A, 0x07C, 0x07E, 0x080, 0x082, 0x084, 0x086, 0x088, 0x08A,
        0x08C, 0x08E, 0x090, 0x092, 0x094, 0x096, 0x098, 0x09A, 0x09C, 0x09E, 0x0A0, 0x0A2, 0x0A4, 0x0A6, 0x0A8,
        0x0AA] : List WindowOffset),
      exec (.registerWrite offset v) s = .next { s with
        window := { s.window with capture := s.window.capture.take .readOnly offset }
        ints := s.ints.setting 0x40 }) ∧
    (∀ row ∈ ([(0x016, .aperturePageWrite v), (0x020, .intStatusWrite v), (0x022, .intEnableWrite v),
        (0x032, .signalSet v), (0x034, .signalClear v), (0x042, .tableSelectWrite v), (0x044, .slotPeriodWrite v),
        (0x066, .laneSelectWrite v), (0x074, .recordPointerWrite v), (0x076, .laneConfigWrite v),
        (0x0AC, .queueThresholdWrite v), (0x0AE, .queuePop v)] : List (WindowOffset × Instr)),
      exec (.registerWrite row.1 v) s = exec row.2 s) ∧
    (∀ row ∈ ([(1, .enable (v.extractLsb' 0 4)), (2, .disable (v.extractLsb' 0 4)), (3, .start (v.extractLsb' 0 4)),
        (4, .halt (v.extractLsb' 0 4)), (5, .resume (v.extractLsb' 0 4)), (6, .abort (v.extractLsb' 0 4)),
        (0, .laneCommandUnknown (v.extractLsb' 0 4) 0), (7, .laneCommandUnknown (v.extractLsb' 0 4) 7)] :
        List (BitVec 3 × Instr)),
      v.extractLsb' 8 3 = row.1 → exec (.registerWrite 0x060 v) s = exec row.2 s) ∧
    (∀ row ∈ ([(1, .wheelStart), (2, .wheelStop), (3, .wheelRewind), (4, .softReset), (5, .erase)] :
        List (BitVec 4 × Instr)),
      v.extractLsb' 0 4 = row.1 → exec (.registerWrite 0x012 v) s = exec row.2 s) ∧
    (v.extractLsb' 0 4 = 0 ∨ 5 < (v.extractLsb' 0 4).toNat →
      exec (.registerWrite 0x012 v) s = exec (.globalCommandUnknown (v.extractLsb' 0 4)) s) ∧
    (∀ e : Fin 32,
      exec (.registerWrite (0x100 + BitVec.ofNat 11 (2 * e.val)) v) s = exec (.scheduleEntryWrite .a e v) s ∧
      exec (.registerWrite (0x140 + BitVec.ofNat 11 (2 * e.val)) v) s = exec (.scheduleEntryWrite .b e v) s) ∧
    (∀ page : BitVec 7,
      exec (.registerWrite (0x200 + BitVec.ofNat 11 (4 * page.toNat)) v) s =
        exec (.splitLowWrite (.mapEntry page) v) s ∧
      exec (.registerWrite (0x202 + BitVec.ofNat 11 (4 * page.toNat)) v) s = exec (.mapEntryCommit page v) s) ∧
    (∀ w : BitVec 8,
      exec (.registerWrite (0x400 + BitVec.ofNat 11 (4 * w.toNat)) v) s = exec (.splitLowWrite (.aperture w) v) s ∧
      exec (.registerWrite (0x402 + BitVec.ofNat 11 (4 * w.toNat)) v) s = exec (.apertureWordCommit w v) s) ∧
    (∀ p : PortId,
      exec (.registerWrite (0x0C0 + BitVec.ofNat 11 (16 * p.val)) v) s =
        (if v.getLsbD 0 then exec (.portRxEnable p v) s else exec (.portRxDisable p v) s) ∧
      exec (.registerWrite (0x0C0 + BitVec.ofNat 11 (16 * p.val)) v) s =
        (if v.getLsbD 1 then exec (.portTxEnable p v) s else exec (.portTxDisable p v) s) ∧
      exec (.registerWrite (0x0C4 + BitVec.ofNat 11 (16 * p.val)) v) s = exec (.splitLowWrite (.idleWord p) v) s ∧
      exec (.registerWrite (0x0C6 + BitVec.ofNat 11 (16 * p.val)) v) s = exec (.portIdleWordCommit p v) s ∧
      exec (.registerWrite (0x0C8 + BitVec.ofNat 11 (16 * p.val)) v) s = exec (.portStatusWrite p v) s ∧
      exec (.registerWrite (0x0CA + BitVec.ofNat 11 (16 * p.val)) v) s = exec (.portCounterWrite p .overruns v) s ∧
      exec (.registerWrite (0x0CC + BitVec.ofNat 11 (16 * p.val)) v) s = exec (.portCounterWrite p .underruns v) s ∧
      exec (.registerWrite (0x0CE + BitVec.ofNat 11 (16 * p.val)) v) s = exec (.portCounterWrite p .frameErrors v) s)

/-- At an offset that names no item a read returns 0, a write is ignored and nothing else happens (R176). -/
def Obligations.UnusedOffsetsAreNeitherPerformedNorRefused : Prop :=
  ∀ (s : State) (offset : WindowOffset) (v : Half), s.resetPin = false → offset.toNat % 2 = 0 →
    (0x006 ≤ offset.toNat ∧ offset.toNat ≤ 0x00E) ∨ (0x018 ≤ offset.toNat ∧ offset.toNat ≤ 0x01E) ∨
      offset.toNat = 0x024 ∨ offset.toNat = 0x026 ∨ offset.toNat = 0x02E ∨
      (0x036 ≤ offset.toNat ∧ offset.toNat ≤ 0x03E) ∨ (0x04E ≤ offset.toNat ∧ offset.toNat ≤ 0x05E) ∨
      offset.toNat = 0x06C ∨ offset.toNat = 0x06E ∨ (0x0B0 ≤ offset.toNat ∧ offset.toNat ≤ 0x0BE) ∨
      (0x180 ≤ offset.toNat ∧ offset.toNat ≤ 0x1FE) →
    exec (.unusedOffsetAccess offset .read) s = .next { s with window := { s.window with readData := 0 } } ∧
      exec (.unusedOffsetAccess offset (.write v)) s = .next s

/-- A slot tick during a beat is an overrun; else it begins a beat for the READY lane the entry names; it always advances
(R52, R53, R57, R58, R59, R65, R69, R51, R140). -/
def Obligations.SlotTicksServeTheirOwnLaneOrOverrun : Prop :=
  ∀ (s : State), s.resetPin = false → s.wheel.running = true →
    (s.beat.isSome = true → Runs .slotTick s fun t =>
      t.beat = s.beat ∧
      t.wheel = ({ s.wheel with overruns := satInc s.wheel.overruns } : Wheel).advanced ∧
      TickFrame s t s.lane ∧ TickInterrupts s t true) ∧
    (s.beat = none → ∀ l, s.wheel.nextEntry.named = some l → s.ready l = true →
      Runs .slotTick s fun t =>
        t.beat = s.beatFor l ∧ t.beat.isSome = true ∧ t.wheel = s.wheel.advanced ∧ TickFrame s t s.lane ∧
        TickInterrupts s t false)

/-- A spare slot goes to the READY lane with the largest credit, else in rotation to a READY spare lane, else is idle
(R54, R55, R56, R57, R51, R140). -/
def Obligations.SpareSlotsGoToCreditThenRotation : Prop :=
  ∀ (s : State), s.resetPin = false → s.wheel.running = true → s.beat = none → s.ownSlotLane = none →
    (∀ l, s.ready l = true → 0 < (s.lane l).credit →
      (∀ k, s.ready k = true → (s.lane k).credit ≤ (s.lane l).credit ∧
        (k < l → (s.lane k).credit < (s.lane l).credit)) →
      Runs .slotTick s fun t =>
        t.beat = s.beatFor l ∧ t.beat.isSome = true ∧ t.wheel = s.wheel.advanced ∧
        TickInterrupts s t false ∧
        TickFrame s t fun k => if k = l then { s.lane l with credit := (s.lane l).credit - 1 } else s.afterGain k) ∧
    ((∀ k, s.ready k = true → (s.lane k).credit = 0) → ∀ l, s.spareReady l = true →
      (∀ k, s.spareReady k = true → rotationDistance s.wheel.rotation l ≤ rotationDistance s.wheel.rotation k) →
      Runs .slotTick s fun t =>
        t.beat = s.beatFor l ∧ t.beat.isSome = true ∧
        t.wheel = ({ s.wheel with rotation := l } : Wheel).advanced ∧ TickFrame s t s.afterGain ∧
        TickInterrupts s t false) ∧
    ((∀ k, s.ready k = true → (s.lane k).credit = 0) → (∀ l, s.spareReady l = false) →
      Runs .slotTick s fun t => t.beat = none ∧ t.wheel = s.wheel.advanced ∧ TickFrame s t s.afterGain ∧
        TickInterrupts s t false)

/-- Slot ticks count WAITING lanes' timeouts down, and those that reach 0 end their waits, in ascending lane number,
posting if asked (R58, R65, R126, R127, R132, R133, R16, R36, R41, assumption log 2, assumption log 6, assumption log
11). -/
def Obligations.WaitTimeoutsCountAndEnd : Prop :=
  ∀ (s : State), s.resetPin = false →
    (s.wheel.running = false → exec .slotTick s = .next s ∧ ∀ l, exec (.waitTimeout l) s = .next s) ∧
    (∀ l, s.timesOut l = true → exec (.waitTimeout l) s = exec .slotTick s ∧
      Runs (.waitTimeout l) s fun t => s.wheel.running = true →
        (t.lane l).wait = none ∧ t.wheel.slotCount = s.wheel.slotCount + 1) ∧
    (∀ l, s.timesOut l = false → exec (.waitTimeout l) s = .next s) ∧
    (s.wheel.running = true → s.lookupsSound → ∀ l, (s.lane l).state = .waiting → ∀ w, (s.lane l).wait = some w →
      (w.timeoutLeft = 0 → Runs .slotTick s fun t => t.lane l = s.lane l) ∧
      (1 < w.timeoutLeft → Runs .slotTick s fun t =>
        t.lane l = { s.lane l with wait := some { w with timeoutLeft := w.timeoutLeft - 1 } }) ∧
      (w.timeoutLeft = 1 → w.postOnTimeout = false ∨ l ∈ s.timeoutsPosted →
        Runs .slotTick s fun t => t.lane l = (s.lane l).afterWait) ∧
      (w.timeoutLeft = 1 → w.postOnTimeout = true → l ∉ s.timeoutsPosted → Runs .slotTick s fun t =>
        t.lane l = { s.lane l with
          wait := none, pendingPost := some ⟨.timeout, w.tag⟩, phase := .finish, state := .blocked
          reasons := ⟨false, false, true⟩ })) ∧
    (s.wheel.running = true → Runs .slotTick s fun t =>
      t.signals = s.signals ∧
      t.queue = { s.queue with
        entries := s.queue.entries ++ s.timeoutEntries
        nextSequence := s.queue.nextSequence + BitVec.ofNat 8 s.timeoutEntries.length } ∧
      t.ints.status.getLsbD 0 = (s.ints.status.getLsbD 0 ||
        (!s.timeoutEntries.isEmpty &&
          decide (s.queue.thresholdField.toNat + 1 ≤ s.queue.entries.length + s.timeoutEntries.length))) ∧
      t.ints.status.getLsbD 1 = (s.ints.status.getLsbD 1 ||
        allLanes.any fun l => s.waitEnds l && (s.lane l).progress.pointer == 0x7FFC) ∧
      t.ints.status.getLsbD 2 = (s.ints.status.getLsbD 2 ||
        allLanes.any fun l => s.waitEnds l && (s.lane l).progress.pointer != 0x7FFC && (s.lane l).config.step))

/-- A LOAD beat reads its record's words and a RESOLVE beat its cell through the translation the beat took (R73, R95, R71,
assumption log 4). -/
def Obligations.RecordAndCellReadsGoThroughTheBeatsTranslation : Prop :=
  ∀ (s : State) (b : Beat), s.resetPin = false → s.beat = some b →
    (∀ q page rd wr, b.work = .load ⟨q, .memory page rd wr⟩ [] → exec (.recordLoad 3) s =
      .next { s with beat := some { b with
        work := .load ⟨q, .memory page rd wr⟩ ((s.wordsOf page b.progress.pointer).toList)
        progress := { b.progress with current := some (s.wordsOf page b.progress.pointer) } } }) ∧
    (∀ q page rd wr words, b.work = .load ⟨q, .memory page rd wr⟩ words → words.length < 4 →
      exec (.recordLoad 0) s = .next { s with beat := some { b with
        work := .load ⟨q, .memory page rd wr⟩
          (words ++ [s.readMem page (b.progress.pointer + BitVec.ofNat 15 words.length).offset])
        progress := { b.progress with current := match words with
          | [x, y, z] => some ⟨x, y, z, s.readMem page (b.progress.pointer + 3).offset⟩
          | _ => b.progress.current } } }) ∧
    (∀ n : Fin 3, Runs (.recordLoad n.castSucc) s fun t => exec (.recordLoad 0) t = exec (.recordLoad n.succ) s) ∧
    (∀ q page rd wr, b.work = .resolve ⟨q, .memory page rd wr⟩ none → exec .cellRead s =
      .next { s with beat := some { b with
        work := .resolve ⟨q, .memory page rd wr⟩ (some (s.readMem page
          (if b.progress.resolveTarget = .dst then b.progress.resolvedDestination
           else b.progress.resolvedSource).offset))
        progress := { b.progress with hopCount := b.progress.hopCount + 1 } } })

/-- Before each word the first of the seven transfer tests that holds ends the word steps and changes nothing else (R82,
assumption log 5). -/
def Obligations.TransferTestsEndTheWordStepsInOrder : Prop :=
  ∀ (s : State) (b : Beat) (r : RecordCopy) (src dst : BeatCursor) (moved : Nat),
    s.resetPin = false → s.beat = some b → b.progress.current = some r →
    b.work = .transfer src dst moved none none → ∀ stop,
    s.stopBefore b r src dst moved = some stop →
    exec (.wordStep .whole) s = .next { s with beat := some { b with
      work := .transfer src dst moved none (some stop) } } ∧
    exec (.wordStep .read) s = exec (.wordStep .whole) s

/-- A word step moves one word from its source to its destination and counts it, with RANGE past 0x7FFF (R83, R86, R82,
R152, assumption log 5, assumption log 28). -/
def Obligations.WordStepMovesOneWord : Prop :=
  ∀ (s : State) (b : Beat) (r : RecordCopy) (src dst : BeatCursor) (moved : Nat),
    s.resetPin = false → s.memoryCanonical → s.beat = some b → b.progress.current = some r →
    (∀ q d, dst.target = .port q d → ∀ w : Word, b.work = .transfer src dst moved (some ⟨w, true⟩) none →
      b.progress.remaining ≠ 0 →
      exec (.wordStep .write) s = .next { s with beat := some (b.afterWord r src dst moved) }) ∧
    (b.work = .transfer src dst moved none none → s.wordMayMove b r src dst moved →
      (Runs (.wordStep .read) s fun u => exec (.wordStep .write) u = exec (.wordStep .whole) s) ∧
      (∀ q d, dst.target = .port q d → Runs (.wordStep .read) s fun u =>
        (∀ p d', src.target = .port p d' → ∀ w rest, (s.port p).rxFifo = w :: rest → (u.port p).rxFifo = rest) ∧
        ∀ v : Half, Runs (.portTxDisable q v) u fun x =>
          (x.port q).txEnable = false ∧
          exec (.wordStep .write) x = .next { x with beat := some (b.afterWord r src dst moved) }) ∧
      Runs (.wordStep .whole) s fun t =>
        t.beat = some (b.afterWord r src dst moved) ∧
        (∀ page rd wr, dst.target = .memory page rd wr →
          (∀ source rd' wr', src.target = .memory source rd' wr' →
            t.readMem page b.progress.destinationPosition.offset =
              s.readMem source b.progress.sourcePosition.offset ∧ t.ports = s.ports) ∧
          (∀ p d, src.target = .port p d →
            (s.port p).rxFifo = t.readMem page b.progress.destinationPosition.offset :: (t.port p).rxFifo ∧
              t.port p = { s.port p with rxFifo := (t.port p).rxFifo } ∧ OtherPortsKept s t p) ∧
          ∀ other offset, (other, offset) ≠ (page, b.progress.destinationPosition.offset) →
            t.readMem other offset = s.readMem other offset) ∧
        (∀ q d, dst.target = .port q d →
          t.mem = s.mem ∧
          (∀ source rd wr, src.target = .memory source rd wr →
            t.port q = { s.port q with
              txFifo := (s.port q).txFifo ++ [s.readMem source b.progress.sourcePosition.offset] } ∧
            OtherPortsKept s t q) ∧
          ∀ p d', src.target = .port p d' → ∀ w rest, (s.port p).rxFifo = w :: rest →
            ∀ k, t.port k = { s.port k with
              rxFifo := if k = p then rest else (s.port k).rxFifo
              txFifo := if k = q then (s.port k).txFifo ++ [w] else (s.port k).txFifo }) ∧
        t = { s with beat := t.beat, mem := t.mem, ports := t.ports })

/-- A beat end ends the beat, counts it, empties the deferred slot and touches no memory word and no port (R70, R72, R45,
R34, assumption log 2). -/
def Obligations.EveryBeatEndCountsTheBeatAndChangesNoWord : Prop :=
  ∀ (s : State) (b : Beat), s.resetPin = false → s.beat = some b →
    (b.work.over = false → exec .beatEnd s = .next s) ∧
    (b.work.over = true → Runs .beatEnd s fun t =>
      t.beat = none ∧ (t.lane b.lane).beats = (s.lane b.lane).beats + 1 ∧ (t.lane b.lane).deferred = none ∧
      t.mem = s.mem ∧ t.ports = s.ports ∧ t.wheel = s.wheel ∧ t.map.entries = s.map.entries ∧
      t.ints.enable = s.ints.enable ∧ t.clearing = s.clearing ∧ t.resetPin = s.resetPin ∧ t.pending = s.pending ∧
      t.window = { s.window with recordIndex := t.window.recordIndex })

/-- The first validation check that fails gives the cause and the offending address (R4,
11_register_and_format_reference.md 11.2). -/
def Obligations.RecordValidationChecksInOrder : Prop :=
  ∀ (r : RecordCopy) (p : LAddr), r.validate p =
    (let kind := r.word0.extractLsb' 29 3
     let reserved : Word :=
       if kind = 1 then 0x00F0E000 else if kind = 2 then 0x0FFFF000 else if kind = 3 then 0x0FFFFFFF
       else if kind = 4 then 0x03FFFFFF else if kind = 5 then 0x0FFFFFFF else 0x0DFFFFFF
     let count := (r.word0.extractLsb' 0 13).toNat
     if kind = 0 ∨ kind = 7 then some (.badKind, p)
     else if r.word0 &&& reserved ≠ 0 then some (.badField, p)
     else if kind = 1 ∧ (count = 0 ∨ 4096 < count) then some (.badField, p)
     else if (kind = 1 ∨ kind = 2) ∧ r.word1.extractLsb' 15 16 ≠ 0 then some (.badField, p + 1)
     else if (kind = 4 ∨ kind = 5) ∧ r.word1.extractLsb' 0 16 = 0 then some (.badField, p + 1)
     else if kind = 2 ∧ r.word1.getLsbD 31 = false ∧ r.word1.extractLsb' 0 2 ≠ 0 then
       some (.misaligned, r.word1.extractLsb' 0 15)
     else if kind = 1 ∧ r.word2.extractLsb' 15 16 ≠ 0 then some (.badField, p + 2)
     else none)

/-- The end of a LOAD beat faults the lane on an invalid record and halts it at a valid record with BREAK set (R4, R17,
R41, R73, R74, R37, R91, R177). -/
def Obligations.InvalidRecordsAndBreaksStopTheLane : Prop :=
  ∀ (s : State) (b : Beat) (r : RecordCopy), BeatEnds s b → b.work.isLoad = true → b.progress.current = some r →
    s.lookupsSound →
    (∀ cause offending, r.validate b.progress.pointer = some (cause, offending) → exec .beatEnd s =
      .next { s.setLane b.lane (((s.lane b.lane).served b).faultedWith
          ⟨cause, b.progress.pointer, offending, .walk, 0⟩) with
        beat := none, map := s.map.without b.lane, ints := s.ints.setting 0x02
        window := { s.window with recordIndex := s.window.indexAfter b.lane true } }) ∧
    (r.validate b.progress.pointer = none → r.breakFlag = true → exec .beatEnd s =
      .next { s.setLane b.lane (({ (s.lane b.lane).served b with phase := .dispatch } : Lane).haltedBy .breakFlag
          .active) with
        beat := none, ints := s.ints.setting 0x04
        window := { s.window with recordIndex := s.window.indexAfter b.lane true } })

/-- Dispatch of a MOVE sets up its transfer, or the resolution of its first indirect reference, and moves no word (R75,
R94, R25, R105). -/
def Obligations.MoveDispatchPreparesTheTransfer : Prop :=
  ∀ (s : State) (b : Beat) (r : RecordCopy), BeatEnds s b → b.dispatches r → r.kind = some .move →
    (r.word1.getLsbD 31 = false → r.word2.getLsbD 31 = false → Runs .beatEnd s fun t =>
      t.lane b.lane = ((s.lane b.lane).served b).transferring (r.word0.extractLsb' 0 13).toNat
        (r.word1.extractLsb' 0 15) (r.word2.extractLsb' 0 15) ∧
      OtherLanesKept s t b.lane ∧ t.map.entries = s.map.entries ∧
      t.map.queue = s.map.queue ++ (s.lane b.lane).src.appended b.lane .src (r.word1.extractLsb' 8 7) ++
        (s.lane b.lane).dst.appended b.lane .dst (r.word2.extractLsb' 8 7) ∧
      t = { s with beat := none, lanes := t.lanes, map := t.map, window := t.window }) ∧
    (r.word1.getLsbD 31 = true → Runs .beatEnd s fun t =>
      t.lane b.lane = ((s.lane b.lane).served b).resolving .src (r.word1.extractLsb' 0 15) ∧
      OtherLanesKept s t b.lane ∧ t.map.entries = s.map.entries ∧
      t.map.queue = s.map.queue ++ (s.lane b.lane).hop.appended b.lane .hop (r.word1.extractLsb' 8 7) ∧
      t = { s with beat := none, lanes := t.lanes, map := t.map, window := t.window }) ∧
    (r.word1.getLsbD 31 = false → r.word2.getLsbD 31 = true → Runs .beatEnd s fun t =>
      t.lane b.lane = ({ (s.lane b.lane).served b with
          progress := { b.progress with resolvedSource := r.word1.extractLsb' 0 15 } } : Lane).resolving .dst
        (r.word2.extractLsb' 0 15) ∧
      OtherLanesKept s t b.lane ∧ t.map.entries = s.map.entries ∧
      t.map.queue = s.map.queue ++ (s.lane b.lane).hop.appended b.lane .hop (r.word2.extractLsb' 8 7) ∧
      t = { s with beat := none, lanes := t.lanes, map := t.map, window := t.window })

/-- A LINK jumps, counts a pass, falls through or faults NESTED_REPEAT by the lane's repeat record, or begins to resolve
(R7, R8, R9, R76, R94, R16, R90, R36, R41, assumption log 11). -/
def Obligations.LinksFollowTheRepeatRecord : Prop :=
  ∀ (s : State) (b : Beat) (r : RecordCopy), BeatEnds s b → b.dispatches r → r.kind = some .link → s.lookupsSound →
    (r.word1.getLsbD 31 = true → Runs .beatEnd s fun t =>
      t.lane b.lane = ((s.lane b.lane).served b).resolving .link (r.word1.extractLsb' 0 15) ∧
      OtherLanesKept s t b.lane ∧ t.map.entries = s.map.entries ∧
      t.map.queue = s.map.queue ++ (s.lane b.lane).hop.appended b.lane .hop (r.word1.extractLsb' 8 7) ∧
      t = { s with beat := none, lanes := t.lanes, map := t.map, window := t.window }) ∧
    (r.word1.getLsbD 31 = false →
      ((r.word0.extractLsb' 0 12).toNat = 0 →
        JumpsTo s b ((s.lane b.lane).served b) s.map.queue (r.word1.extractLsb' 0 15)) ∧
      ((r.word0.extractLsb' 0 12).toNat ≠ 0 → (s.lane b.lane).repeatRecord = none →
        JumpsTo s b { (s.lane b.lane).served b with
          repeatRecord := some ⟨b.progress.pointer, (r.word0.extractLsb' 0 12).toNat⟩ } s.map.queue
          (r.word1.extractLsb' 0 15)) ∧
      ((r.word0.extractLsb' 0 12).toNat ≠ 0 → ∀ a m, (s.lane b.lane).repeatRecord = some ⟨a, m⟩ →
        (a = b.progress.pointer → 1 < m →
          JumpsTo s b { (s.lane b.lane).served b with repeatRecord := some ⟨a, m - 1⟩ } s.map.queue
            (r.word1.extractLsb' 0 15)) ∧
        (a = b.progress.pointer → m ≤ 1 → Runs .beatEnd s fun t =>
          t.lane b.lane = ({ (s.lane b.lane).served b with repeatRecord := none } : Lane).completed b.step ∧
          OtherLanesKept s t b.lane ∧ t.map.entries = s.map.entries ∧
          t.ints = s.ints.setting (completionInts b.progress.pointer b.step) ∧
          t = { s with beat := none, lanes := t.lanes, map := t.map, ints := t.ints, window := t.window }) ∧
        (a ≠ b.progress.pointer → Runs .beatEnd s fun t =>
          t.lane b.lane = ((s.lane b.lane).served b).faultedWith
            ⟨.nestedRepeat, b.progress.pointer, a, .walk, 0⟩ ∧
          OtherLanesKept s t b.lane ∧ t.map = s.map.without b.lane ∧ t.ints = s.ints.setting 0x02 ∧
          t = { s with beat := none, lanes := t.lanes, map := t.map, ints := t.ints, window := t.window })))

/-- Dispatch of a POST pushes its entry and completes, or on a full queue leaves the lane BLOCKED on QUEUE (R10, R16, R77,
R132, R133, R90, R36, R41, assumption log 11). -/
def Obligations.PostPushesOrTakesAPendingPost : Prop :=
  ∀ (s : State) (b : Beat) (r : RecordCopy), BeatEnds s b → b.dispatches r → r.kind = some .post → s.lookupsSound →
    (s.queue.entries.length < 32 → Runs .beatEnd s fun t =>
      t.queue = s.queueWith (s.entryFor b.lane .post (r.word3.extractLsb' 0 16) b.progress.pointer) ∧
      t.ints = s.ints.setting (s.pushInts ||| completionInts b.progress.pointer b.step) ∧
      t.lane b.lane = ((s.lane b.lane).served b).completed b.step ∧
      OtherLanesKept s t b.lane ∧ t.map.entries = s.map.entries ∧
      t = { s with
        beat := none, lanes := t.lanes, map := t.map, queue := t.queue, ints := t.ints, window := t.window }) ∧
    (32 ≤ s.queue.entries.length → Runs .beatEnd s fun t =>
      t.lane b.lane = ((s.lane b.lane).served b).heldOnQueue .post (r.word3.extractLsb' 0 16) ∧
      OtherLanesKept s t b.lane ∧ t = { s with beat := none, lanes := t.lanes, window := t.window })

/-- A WAIT waits or consumes the lowest signal, a RAISE sets its signals, and a STOP leaves the lane IDLE (R11, R13, R14,
R16, R77, R78, R79, R133, R36, R132, assumption log 11, assumption log 30). -/
def Obligations.WaitRaiseAndStopDispatch : Prop :=
  ∀ (s : State) (b : Beat) (r : RecordCopy), BeatEnds s b → b.dispatches r → s.lookupsSound →
    (s.lane b.lane).state = .active →
    (r.kind = some .wait → s.signals &&& r.word1.extractLsb' 0 16 = 0 → Runs .beatEnd s fun t =>
      t.lane b.lane = { (s.lane b.lane).served b with
        state := .waiting, phase := .load, reasons := ⟨false, false, false⟩, credit := 0
        wait := some ⟨r.word1.extractLsb' 0 16, r.word0.getLsbD 27, (r.word2.extractLsb' 0 16).toNat,
          r.word0.getLsbD 26, r.word3.extractLsb' 0 16⟩ } ∧
      OtherLanesKept s t b.lane ∧ t = { s with beat := none, lanes := t.lanes, window := t.window }) ∧
    (r.kind = some .wait → ∀ n : SignalId, (s.signals &&& r.word1.extractLsb' 0 16).getLsbD n.val = true →
      (∀ m : SignalId, m < n → (s.signals &&& r.word1.extractLsb' 0 16).getLsbD m.val = false) →
      Runs .beatEnd s fun t =>
        t.signals = (if r.word0.getLsbD 27 then s.signals &&& ~~~ (BitVec.twoPow 16 n.val) else s.signals) ∧
        t.lane b.lane = ((s.lane b.lane).served b).completed b.step ∧ OtherLanesKept s t b.lane ∧
        t.map.entries = s.map.entries ∧
        t.ints = s.ints.setting (completionInts b.progress.pointer b.step) ∧
        t = { s with
          beat := none, lanes := t.lanes, map := t.map, signals := t.signals, ints := t.ints
          window := t.window }) ∧
    (r.kind = some .raise → Runs (.signalSet (r.word1.extractLsb' 0 16)) s fun v => Runs .beatEnd s fun t =>
        t.signals = v.signals ∧ t.lane b.lane = ((s.lane b.lane).served b).completed b.step ∧
        OtherLanesKept v t b.lane ∧ t.map.entries = s.map.entries ∧
        t.ints = v.ints.setting (completionInts b.progress.pointer b.step) ∧
        t = { s with
          beat := none, lanes := t.lanes, map := t.map, signals := t.signals, ints := t.ints
          window := t.window }) ∧
    (r.kind = some .stop → r.word0.getLsbD 25 = false ∨ s.queue.entries.length < 32 → Runs .beatEnd s fun t =>
      t.lane b.lane = ((s.lane b.lane).served b).stopped ∧ OtherLanesKept s t b.lane ∧
      t.map = s.map.without b.lane ∧
      t.queue = (if r.word0.getLsbD 25 then
          s.queueWith (s.entryFor b.lane .stop (r.word3.extractLsb' 0 16) b.progress.pointer)
        else s.queue) ∧
      t.ints = s.ints.setting (if r.word0.getLsbD 25 then s.pushInts else 0) ∧
      t = { s with
        beat := none, lanes := t.lanes, map := t.map, queue := t.queue, ints := t.ints, window := t.window }) ∧
    (r.kind = some .stop → r.word0.getLsbD 25 = true → 32 ≤ s.queue.entries.length → Runs .beatEnd s fun t =>
      t.lane b.lane = ((s.lane b.lane).served b).heldOnQueue .stop (r.word3.extractLsb' 0 16) ∧
      OtherLanesKept s t b.lane ∧ t = { s with beat := none, lanes := t.lanes, window := t.window })

/-- A TRANSFER beat that stops leaves its progress, and goes on, blocks or faults the lane as the stop says (R84, R85,
R86, R87, R153, assumption log 31). -/
def Obligations.TransferStopsLeaveTheMoveUnfinished : Prop :=
  ∀ (s : State) (b : Beat) (r : RecordCopy), BeatEnds s b → b.progress.current = some r → s.lookupsSound →
    ∀ src dst moved stop, b.work = .transfer src dst moved none (some stop) →
    (stop = .burst → exec .beatEnd s = .next { s.setLane b.lane
      ({ (s.lane b.lane).served b with portWait := none } : Lane).enterActive with beat := none }) ∧
    (stop = .crossing → Runs .beatEnd s fun t =>
      t.lane b.lane = ({ (s.lane b.lane).served b with
        portWait := none
        src := if crossed src r.srcFixed b.progress.sourcePosition then
            (s.lane b.lane).src.retargeted b.progress.sourcePosition.page
          else (s.lane b.lane).src
        dst := if crossed dst r.dstFixed b.progress.destinationPosition then
            (s.lane b.lane).dst.retargeted b.progress.destinationPosition.page
          else (s.lane b.lane).dst } : Lane).enterActive ∧
      OtherLanesKept s t b.lane ∧ t.map.entries = s.map.entries ∧
      t.map.queue = s.map.queue ++
        (if crossed src r.srcFixed b.progress.sourcePosition then
          (s.lane b.lane).src.appended b.lane .src b.progress.sourcePosition.page else []) ++
        (if crossed dst r.dstFixed b.progress.destinationPosition then
          (s.lane b.lane).dst.appended b.lane .dst b.progress.destinationPosition.page else []) ∧
      t = { s with beat := none, lanes := t.lanes, map := t.map }) ∧
    (∀ role, stop = .portOff role →
      FaultsAtEnd s b ⟨.portOff, b.progress.pointer, b.progress.addressOf role, role, 0⟩) ∧
    (∀ role, stop = .range role → FaultsAtEnd s b ⟨.range, b.progress.pointer, 0x7FFF, role, 0⟩) ∧
    (∀ p, stop = .portEmpty p →
      ((s.port p).rxEnable = false →
        FaultsAtEnd s b ⟨.portOff, b.progress.pointer, b.progress.sourcePosition, .src, b.progress.hopCount⟩) ∧
      ((s.port p).rxEnable = true → exec .beatEnd s = .next { s.setLane b.lane
        (if (s.port p).rxFifo = [] then
          { (s.lane b.lane).served b with
            portWait := some ⟨p, .rx⟩, state := .blocked
            reasons := ⟨!((s.lane b.lane).served b).neededMapped, true, false⟩ }
         else ({ (s.lane b.lane).served b with portWait := none } : Lane).enterActive) with beat := none })) ∧
    (∀ q, stop = .portFull q →
      ((s.port q).txEnable = false →
        FaultsAtEnd s b ⟨.portOff, b.progress.pointer, b.progress.destinationPosition, .dst, b.progress.hopCount⟩) ∧
      ((s.port q).txEnable = true → exec .beatEnd s = .next { s.setLane b.lane
        (if 32 ≤ (s.port q).txFifo.length then
          { (s.lane b.lane).served b with
            portWait := some ⟨q, .tx⟩, state := .blocked
            reasons := ⟨!((s.lane b.lane).served b).neededMapped, true, false⟩ }
         else ({ (s.lane b.lane).served b with portWait := none } : Lane).enterActive) with beat := none }))

/-- A finished MOVE pushes MOVE_DONE, sets its signal and completes, or holds the push, and a FINISH beat retries it (R6,
R88, R89, R90, R132, R133, R16, R36, R41, assumption log 11). -/
def Obligations.MoveFinishPostsSignalsAndCompletes : Prop :=
  ∀ (s : State) (b : Beat) (r : RecordCopy), BeatEnds s b → b.progress.current = some r → r.kind = some .move →
    (s.lane b.lane).state = .active → s.lookupsSound →
    ((b.work.isFinishStep = true ∧ (s.lane b.lane).pendingPost = none) ∨
      (b.work = .finish ∧ (s.lane b.lane).phase = .finish ∧ r.word0.getLsbD 25 = true ∧
        (s.lane b.lane).pendingPost = some ⟨.moveDone, r.word3.extractLsb' 0 16⟩)) →
    (r.word0.getLsbD 25 = false ∨ s.queue.entries.length < 32 →
      AfterSignals (r.word0.getLsbD 24) (BitVec.twoPow 16 (r.word0.extractLsb' 16 4).toNat) s fun v =>
      Runs .beatEnd s fun t =>
        t.queue = (if r.word0.getLsbD 25 then
            s.queueWith (s.entryFor b.lane .moveDone (r.word3.extractLsb' 0 16) b.progress.pointer)
          else s.queue) ∧
        t.signals = v.signals ∧
        t.lane b.lane = ({ (s.lane b.lane).served b with
          pendingPost := none, src := ⟨0, .unset⟩, dst := ⟨0, .unset⟩ } : Lane).completed b.step ∧
        OtherLanesKept v t b.lane ∧ t.map.entries = s.map.entries ∧
        t.ints = v.ints.setting
          ((if r.word0.getLsbD 25 then s.pushInts else 0) ||| completionInts b.progress.pointer b.step) ∧
        t = { s with
          beat := none, lanes := t.lanes, map := t.map, signals := t.signals, queue := t.queue, ints := t.ints
          window := t.window }) ∧
    (r.word0.getLsbD 25 = true → 32 ≤ s.queue.entries.length → exec .beatEnd s =
      .next { s.setLane b.lane (((s.lane b.lane).served b).heldOnQueue .moveDone (r.word3.extractLsb' 0 16)) with
        beat := none })

/-- A FINISH beat of a POST, WAIT or STOP pushes the held entry and finishes the record, or blocks on QUEUE again (R89,
R133, R14, R16, R127, R36, R41, R132, assumption log 11). -/
def Obligations.FinishBeatsRetryTheHeldEntry : Prop :=
  ∀ (s : State) (b : Beat) (r : RecordCopy), BeatEnds s b → b.progress.current = some r → b.work = .finish →
    (s.lane b.lane).phase = .finish → s.lookupsSound → ∀ kind tag,
    (s.lane b.lane).pendingPost = some ⟨kind, tag⟩ →
    (32 ≤ s.queue.entries.length → exec .beatEnd s =
      .next { s.setLane b.lane (((s.lane b.lane).served b).heldOnQueue kind tag) with beat := none }) ∧
    (s.queue.entries.length < 32 → r.kind = some .stop ∨ r.kind = some .post ∨ r.kind = some .wait →
      Runs .beatEnd s fun t =>
        t.queue = s.queueWith (s.entryFor b.lane kind tag b.progress.pointer) ∧
        t.ints = s.ints.setting (s.pushInts |||
          (if r.kind = some .stop then 0 else completionInts b.progress.pointer b.step)) ∧
        t.lane b.lane = (if r.kind = some .stop then ((s.lane b.lane).served b).stopped
          else ({ (s.lane b.lane).served b with pendingPost := none } : Lane).completed b.step) ∧
        OtherLanesKept s t b.lane ∧ t.map.entries = s.map.entries ∧
        t = { s with
          beat := none, lanes := t.lanes, map := t.map, queue := t.queue, ints := t.ints, window := t.window })

/-- A RESOLVE beat's cell faults, leads to the next cell or reference, ends in CHAIN_DEPTH, or sets up the transfer (R95,
R96, R98, R99). -/
def Obligations.CellsEndOrContinueAResolution : Prop :=
  ∀ (s : State) (b : Beat) (r : RecordCopy), BeatEnds s b → b.progress.current = some r → s.lookupsSound →
    (s.lane b.lane).phase = .resolve → ∀ hop cell, b.work = .resolve hop (some cell) →
    (cell.extractLsb' 15 16 ≠ 0 → FaultsAtEnd s b
      ⟨.badField, b.progress.pointer, b.progress.addressOf .hop, .hop, b.progress.hopCount⟩) ∧
    (cell.extractLsb' 15 16 = 0 → cell.getLsbD 31 = true → 7 ≤ b.progress.hopCount → FaultsAtEnd s b
      ⟨.chainDepth, b.progress.pointer, b.progress.addressOf .hop, .hop, b.progress.hopCount⟩) ∧
    (b.progress.addressOf .hop =
      if b.progress.resolveTarget = .dst then b.progress.resolvedDestination else b.progress.resolvedSource) ∧
    (cell.extractLsb' 15 16 = 0 → cell.getLsbD 31 = true → b.progress.hopCount < 7 → Runs .beatEnd s fun t =>
      t.lane b.lane = ({ (s.lane b.lane).served b with
        portWait := none
        progress :=
          if b.progress.resolveTarget = .dst then
            { b.progress with resolvedDestination := cell.extractLsb' 0 15 }
          else { b.progress with resolvedSource := cell.extractLsb' 0 15 }
        hop := (s.lane b.lane).hop.retargeted (cell.extractLsb' 8 7) } : Lane).enterActive ∧
      OtherLanesKept s t b.lane ∧ t.map.entries = s.map.entries ∧
      t.map.queue = s.map.queue ++ (s.lane b.lane).hop.appended b.lane .hop (cell.extractLsb' 8 7) ∧
      t = { s with beat := none, lanes := t.lanes, map := t.map }) ∧
    (cell.extractLsb' 15 16 = 0 → cell.getLsbD 31 = false → b.progress.resolveTarget = .src →
      r.word2.getLsbD 31 = true → Runs .beatEnd s fun t =>
      t.lane b.lane = ({ (s.lane b.lane).served b with
          progress := { b.progress with resolvedSource := cell.extractLsb' 0 15 } } : Lane).resolving .dst
        (r.word2.extractLsb' 0 15) ∧
      OtherLanesKept s t b.lane ∧ t.map.entries = s.map.entries ∧
      t.map.queue = s.map.queue ++ (s.lane b.lane).hop.appended b.lane .hop (r.word2.extractLsb' 8 7) ∧
      t = { s with beat := none, lanes := t.lanes, map := t.map }) ∧
    (cell.extractLsb' 15 16 = 0 → cell.getLsbD 31 = false →
      b.progress.resolveTarget = .dst ∨ (b.progress.resolveTarget = .src ∧ r.word2.getLsbD 31 = false) →
      Runs .beatEnd s fun t =>
      t.lane b.lane = ({ (s.lane b.lane).served b with
          hop := ⟨0, .unset⟩
          progress := { b.progress with resolveTarget := .src, hopCount := 0 } } : Lane).transferring
        (r.word0.extractLsb' 0 13).toNat
        (if b.progress.resolveTarget = .dst then b.progress.resolvedSource else cell.extractLsb' 0 15)
        (if b.progress.resolveTarget = .dst then cell.extractLsb' 0 15 else r.word2.extractLsb' 0 15) ∧
      OtherLanesKept s t b.lane ∧ t.map.entries = s.map.entries ∧
      t = { s with beat := none, lanes := t.lanes, map := t.map })

/-- A direct cell of a LINK's chain is its target: misaligned it faults, else the LINK jumps, counts, falls through or
faults (R97, R8, R9, R76, R90, R36, R41, R16, R95, assumption log 11). -/
def Obligations.ResolvedLinksAreActedOn : Prop :=
  ∀ (s : State) (b : Beat) (r : RecordCopy), BeatEnds s b → b.progress.current = some r → s.lookupsSound →
    b.progress.resolveTarget = .link → ∀ hop cell, b.work = .resolve hop (some cell) →
    cell.extractLsb' 15 16 = 0 → cell.getLsbD 31 = false →
    (cell.extractLsb' 0 2 ≠ 0 → FaultsAtEnd s b
      ⟨.misaligned, b.progress.pointer, cell.extractLsb' 0 15, .hop, b.progress.hopCount⟩) ∧
    (cell.extractLsb' 0 2 = 0 →
      ((r.word0.extractLsb' 0 12).toNat = 0 →
        JumpsTo s b (((s.lane b.lane).served b).resolvedTo (cell.extractLsb' 0 15))
          (s.map.queue.filter (· ≠ (b.lane, .hop))) (cell.extractLsb' 0 15)) ∧
      ((r.word0.extractLsb' 0 12).toNat ≠ 0 → (s.lane b.lane).repeatRecord = none →
        JumpsTo s b { ((s.lane b.lane).served b).resolvedTo (cell.extractLsb' 0 15) with
          repeatRecord := some ⟨b.progress.pointer, (r.word0.extractLsb' 0 12).toNat⟩ }
          (s.map.queue.filter (· ≠ (b.lane, .hop))) (cell.extractLsb' 0 15)) ∧
      ((r.word0.extractLsb' 0 12).toNat ≠ 0 → ∀ a m, (s.lane b.lane).repeatRecord = some ⟨a, m⟩ →
        (a = b.progress.pointer → 1 < m →
          JumpsTo s b { ((s.lane b.lane).served b).resolvedTo (cell.extractLsb' 0 15) with
            repeatRecord := some ⟨a, m - 1⟩ } (s.map.queue.filter (· ≠ (b.lane, .hop)))
            (cell.extractLsb' 0 15)) ∧
        (a = b.progress.pointer → m ≤ 1 → b.progress.pointer = 0x7FFC → Runs .beatEnd s fun t =>
          t.lane b.lane = ({ (s.lane b.lane).served b with repeatRecord := none } : Lane).completed b.step ∧
          (t.lane b.lane).state = .faulted ∧ (t.lane b.lane).progress = { b.progress with current := none } ∧
          OtherLanesKept s t b.lane ∧ t.map = s.map.without b.lane ∧ t.ints = s.ints.setting 0x02 ∧
          t = { s with beat := none, lanes := t.lanes, map := t.map, ints := t.ints, window := t.window }) ∧
        (a = b.progress.pointer → m ≤ 1 → b.progress.pointer ≠ 0x7FFC → Runs .beatEnd s fun t =>
          t.lane b.lane = ({ ((s.lane b.lane).served b).resolvedTo (cell.extractLsb' 0 15) with
            repeatRecord := none } : Lane).completed b.step ∧
          OtherLanesKept s t b.lane ∧ t.map.entries = s.map.entries ∧
          t.ints = s.ints.setting (completionInts b.progress.pointer b.step) ∧
          t = { s with beat := none, lanes := t.lanes, map := t.map, ints := t.ints, window := t.window }) ∧
        (a ≠ b.progress.pointer → FaultsAtEnd s b
          ⟨.nestedRepeat, b.progress.pointer, a, .walk, b.progress.hopCount⟩)))

/-- A deferred ABORT, FAULT or HALT is taken at the beat end against what the beat alone would have left, by R34's table
(R33, R34, R32, R41, R43, R177, assumption log 10). -/
def Obligations.DeferredRequestsAreTakenAtTheBeatEnd : Prop :=
  ∀ (s : State) (b : Beat), s.resetPin = false → s.beat = some b → b.work.over = true → s.lookupsSound →
    (s.lane b.lane).state = .active →
    (∀ u, exec .beatEnd (s.undeferred b.lane) = .next u →
      ((u.lane b.lane).state = .idle → b.progress.current.bind RecordCopy.kind = some .stop) ∧
      ((s.lane b.lane).deferred = some .abort → exec .beatEnd s =
        .next { u.setLane b.lane ((u.lane b.lane).clearedTo .idle (u.lane b.lane).config) with
          map := u.map.without b.lane
          ints := u.ints.withLaneBits (s.ints.status.getLsbD 1 || s.othersEntered u b.lane .faulted)
            (s.ints.status.getLsbD 2 || s.othersEntered u b.lane .halted)
          window := { u.window with
            recordIndex := u.window.indexAfter b.lane (u.lane b.lane).progress.current.isSome } }) ∧
      (∀ cause role, (s.lane b.lane).deferred = some (.fault cause role) →
        ((u.lane b.lane).state = .faulted ∨ (u.lane b.lane).state = .idle → exec .beatEnd s = .next u) ∧
        ((u.lane b.lane).state = .active ∨ (u.lane b.lane).state = .blocked ∨ (u.lane b.lane).state = .waiting ∨
            (u.lane b.lane).state = .halted → exec .beatEnd s =
          .next { u.setLane b.lane ((u.lane b.lane).faultedWith ⟨cause, (u.lane b.lane).progress.pointer,
              (u.lane b.lane).progress.addressOf role, role, (u.lane b.lane).progress.hopCount⟩) with
            map := u.map.without b.lane
            ints := u.ints.withLaneBits true
              (s.ints.status.getLsbD 2 || s.othersEntered u b.lane .halted) })) ∧
      ((s.lane b.lane).deferred = some .halt →
        ((u.lane b.lane).state = .active ∨ (u.lane b.lane).state = .blocked ∨ (u.lane b.lane).state = .waiting →
          exec .beatEnd s = .next { u.setLane b.lane ((u.lane b.lane).haltedBy .host
            (if (u.lane b.lane).state = .active then .active
             else if (u.lane b.lane).state = .blocked then .blocked (u.lane b.lane).reasons
             else .waiting)) with ints := u.ints.setting 0x04 }) ∧
        ((u.lane b.lane).state = .halted → exec .beatEnd s = .next u ∧ u.ints.status.getLsbD 2 = true ∧
          ((u.lane b.lane).haltReason = some .step ∨ (u.lane b.lane).haltReason = some .breakFlag)) ∧
        ((u.lane b.lane).state = .idle ∨ (u.lane b.lane).state = .faulted → exec .beatEnd s = .next u))) ∧
    (∀ src dst moved, b.work = .transfer src dst moved none (some .burst) → b.progress.current.isSome = true →
      (∀ cause role, (s.lane b.lane).deferred = some (.fault cause role) →
        FaultsAtEnd s b ⟨cause, b.progress.pointer, b.progress.addressOf role, role, b.progress.hopCount⟩) ∧
      ((s.lane b.lane).deferred = some .halt →
        exec .beatEnd s = .next { s.setLane b.lane
          (({ (s.lane b.lane).served b with portWait := none } : Lane).haltedBy
            .host (if ((s.lane b.lane).served b).neededMapped then .active else .blocked ⟨true, false, false⟩)) with
          beat := none, ints := s.ints.setting 0x04 }))

/-- A lookup starts for the oldest queued cursor of the lane the next entry names, else for the oldest of all (R108, R66,
assumption log 2, assumption log 3). -/
def Obligations.LookupStartChoosesTheCursor : Prop :=
  ∀ (s : State) (before after : List (LaneId × Role)) (l : LaneId) (r : Role), s.resetPin = false →
    s.lookupsSound →
    (s.map.lookup = none → s.map.queue = before ++ (l, r) :: after →
      (s.wheel.nextEntry.named = some l ∧ ∀ q ∈ before, q.1 ≠ l) ∨
        (before = [] ∧ ∀ k, s.wheel.nextEntry.named = some k → ∀ q ∈ s.map.queue, q.1 ≠ k) →
      exec .lookupStart s = .next
        { s.setLane l ((s.lane l).setCursor r ⟨((s.lane l).cursor r).page, .inFlight⟩) with
          map := { s.map with
            queue := before ++ after, lookup := some ⟨l, r, ((s.lane l).cursor r).page, .live⟩ } }) ∧
    (s.map.lookup.isSome = true ∨ s.map.queue = [] → exec .lookupStart s = .next s)

/-- A lookup completion maps its cursor, faults its lane, re-pends a stale cursor, or discards an abandoned lookup (R104,
R109, R110, R111, R35, R33, R25, R38, assumption log 2, assumption log 10). -/
def Obligations.LookupCompletionMapsFaultsOrDiscards : Prop :=
  ∀ (s : State) (e : MapEntry) (l : LaneId) (r : Role), s.resetPin = false → s.lookupsSound →
    (e.check l r =
      (if e.valid = false then some .unmapped
       else if e.mask.getLsbD l.val = false then some .denied
       else if e.kind = .memory ∧ (if r = .dst then e.write else e.read) = false then some .noRight
       else if (e.kind = .portRx ∧ r ≠ .src) ∨ (e.kind = .portTx ∧ r ≠ .dst) then some .targetKind
       else none)) ∧
    (e.translation =
      (if e.kind = .memory then .memory e.page e.read e.write
       else if e.kind = .portRx then .port e.port .rx else .port e.port .tx)) ∧
    (s.map.lookup = none → exec .lookupCompletion s = .next s) ∧
    (∀ k, s.map.lookup = some k →
      (k.disposition = .live → (s.mapEntry k.page).check k.lane k.role = none → exec .lookupCompletion s =
        .next { s.setLane k.lane
          ((s.lane k.lane).mappedTo k.role ⟨k.page, .mapped (s.mapEntry k.page).translation⟩) with
          map := { s.map with lookup := none } }) ∧
      (k.disposition = .live → ∀ cause, (s.mapEntry k.page).check k.lane k.role = some cause →
        ((s.lane k.lane).state = .active → s.ownBeat k.lane = false) → exec .lookupCompletion s =
        .next { s.setLane k.lane ((s.lane k.lane).faultedWith ⟨cause, (s.lane k.lane).progress.pointer,
            (s.lane k.lane).progress.addressOf k.role, k.role, (s.lane k.lane).progress.hopCount⟩) with
          map := { s.map.without k.lane with lookup := none }, ints := s.ints.setting 0x02 }) ∧
      (k.disposition = .live → ∀ cause, (s.mapEntry k.page).check k.lane k.role = some cause →
        (s.lane k.lane).state = .active → s.ownBeat k.lane = true → exec .lookupCompletion s =
        .next { s.setLane k.lane (({ s.lane k.lane with
            deferred := match (s.lane k.lane).deferred with
              | none => some (.fault cause k.role)
              | some .halt => some (.fault cause k.role)
              | held => held } : Lane).setCursor k.role ⟨0, .unset⟩) with
          map := { s.map with lookup := none } }) ∧
      (k.disposition = .stale → exec .lookupCompletion s =
        .next { s.setLane k.lane ((s.lane k.lane).setCursor k.role
            ⟨((s.lane k.lane).cursor k.role).page, .pending⟩) with
          map := { s.map with lookup := none, queue := s.map.queue ++ [(k.lane, k.role)] } }) ∧
      (k.disposition = .abandoned →
        exec .lookupCompletion s = .next { s with map := { s.map with lookup := none } }))

/-- An FS strobe counts a broken frame, takes the receive capture, and pops a transmit word or sends zero or the idle
word, bit 31 first (R145, R147, R154, R155, R156, R144, assumption log 22, assumption log 21). -/
def Obligations.FrameStartPreparesBothDirections : Prop :=
  ∀ (s : State) (p : PortId), s.resetPin = false →
    ((s.port p).txEnable = false → Runs (.frameStart p) s fun t =>
      t.port p = { (s.port p).strobed with shiftWord := 0 } ∧ (t.port p).sdo = false ∧ OtherPortsKept s t p ∧
      t = { s with
        ports := t.ports
        ints := if (s.port p).broken then s.ints.setting 0x08 else s.ints }) ∧
    ((s.port p).txEnable = true → (s.port p).txFifo = [] → Runs (.frameStart p) s fun t =>
      t.port p = { (s.port p).strobed with
        shiftWord := (s.port p).idleWord, underruns := satInc (s.port p).underruns, underrunFlag := true } ∧
      (t.port p).sdo = (s.port p).idleWord.getLsbD 31 ∧ OtherPortsKept s t p ∧
      t = { s with ports := t.ports, ints := s.ints.setting 0x08 }) ∧
    ((s.port p).txEnable = true → ∀ w rest, (s.port p).txFifo = w :: rest →
      AfterSignals (rest.length = (s.port p).txMark.toNat && (s.port p).txSignalEnable)
        (BitVec.twoPow 16 (s.port p).txSignal.toNat) s fun v =>
      Runs (.frameStart p) s fun t =>
        t.port p = { (s.port p).strobed with txFifo := rest, shiftWord := w } ∧ OtherPortsKept s t p ∧
        (t.port p).sdo = w.getLsbD 31 ∧
        (∀ l, t.lane l = (v.lane l).releasedBy ⟨p, .tx⟩) ∧
        t = { v with
          ports := t.ports, lanes := t.lanes
          ints := if (s.port p).broken then v.ints.setting 0x08 else v.ints })

/-- SDO sends the shift word bit by bit in a frame; the 32nd bit completes the received word: pushed, dropped as an
overrun, or discarded (R144, R146, R154, R155, R156, assumption log 2, assumption log 22, assumption log 21). -/
def Obligations.FrameEndOffersTheReceivedWord : Prop :=
  ∀ (s : State) (p : PortId) (sdi : Bool), s.resetPin = false →
    ((s.port p).inFrame = true → (s.port p).sdo = (s.port p).shiftWord.getLsbD (31 - (s.port p).bits)) ∧
    ((s.port p).inFrame = false → 
      (s.port p).sdo = false ∧ exec (.sckPeriod p sdi) s = .next s ∧ exec (.frameEnd p sdi) s = .next s) ∧
    ((s.port p).bits ≠ 31 → exec (.frameEnd p sdi) s = .next s) ∧
    ((s.port p).inFrame = true → (s.port p).bits < 31 → Runs (.sckPeriod p sdi) s fun t =>
      t.port p = { s.port p with received := (s.port p).filled sdi, bits := (s.port p).bits + 1 } ∧
        (t.port p).sdo = (s.port p).shiftWord.getLsbD (30 - (s.port p).bits) ∧ OtherPortsKept s t p ∧
        t = { s with ports := t.ports }) ∧
    ((s.port p).inFrame = true → (s.port p).bits = 31 →
      exec (.sckPeriod p sdi) s = exec (.frameEnd p sdi) s ∧
      ((s.port p).capture = false → Runs (.frameEnd p sdi) s fun t =>
        t.port p = (s.port p).ended sdi ∧ (t.port p).sdo = false ∧ OtherPortsKept s t p ∧
        t = { s with ports := t.ports }) ∧
      ((s.port p).capture = true → 32 ≤ (s.port p).rxFifo.length → Runs (.frameEnd p sdi) s fun t =>
        t.port p = { (s.port p).ended sdi with overruns := satInc (s.port p).overruns, overrunFlag := true } ∧
        (t.port p).sdo = false ∧ OtherPortsKept s t p ∧ t = { s with ports := t.ports, ints := s.ints.setting 0x08 }) ∧
      ((s.port p).capture = true → (s.port p).rxFifo.length < 32 →
        AfterSignals ((s.port p).rxFifo.length = (s.port p).rxMarkField.toNat && (s.port p).rxSignalEnable)
          (BitVec.twoPow 16 (s.port p).rxSignal.toNat) s fun v =>
        Runs (.frameEnd p sdi) s fun t =>
          t.port p = { (s.port p).ended sdi with rxFifo := (s.port p).rxFifo ++ [(s.port p).filled sdi] } ∧
          (t.port p).sdo = false ∧ OtherPortsKept s t p ∧
          (∀ l, t.lane l = (v.lane l).releasedBy ⟨p, .rx⟩) ∧
          t = { v with ports := t.ports, lanes := t.lanes }))

/-- The state just after a device reset meets every condition that the invariants below keep (R46, R67, R118, R139, R159,
R170, assumption log 7). -/
def Obligations.ResetStateMeetsEveryInvariant : Prop :=
  State.reset.memoryCanonical ∧ State.reset.queue.inOrder ∧ State.reset.lanesConsistent ∧
    State.reset.signalsUnawaited ∧ State.reset.queueHeldOnlyFull ∧ State.reset.lookupsSound ∧
    State.reset.cursorsAgree ∧ State.reset.portsSound ∧ State.reset.wheelSound

/-- Every step keeps exchange memory in its canonical form (R162, R165, R70, assumption log 8). -/
def Obligations.MemoryStaysCanonical : Prop :=
  ∀ (s t : State), s.memoryCanonical → step s = .next t → t.memoryCanonical

/-- Every step keeps the queue at 0 to 32 entries whose sequence numbers run consecutively modulo 256 (R134, R131, R132,
R136). -/
def Obligations.QueueStaysInSequence : Prop :=
  ∀ (s t : State), s.queue.inOrder → step s = .next t → t.queue.inOrder

/-- Every step keeps each lane's optional parts in agreement with its state, and credit 0 where it must be (R41, R23, R20,
R21, R33, R38, R60). -/
def Obligations.LaneContextsStayConsistent : Prop :=
  ∀ (s t : State), s.lanesConsistent → step s = .next t → t.lanesConsistent

/-- Every step keeps it so that no set signal is awaited and that the queue is full while any lane holds QUEUE (R123,
R124, R137). -/
def Obligations.NoLaneWaitsForWhatIsThere : Prop :=
  ∀ (s t : State), step s = .next t →
    (s.signalsUnawaited → t.signalsUnawaited) ∧ (s.queueHeldOnlyFull → t.queueHeldOnlyFull)

/-- Every step keeps the lookup queue equal to the PENDING cursors, each once, with at most one cursor IN_FLIGHT (R104,
R106, R107, R41). -/
def Obligations.LookupUnitStaysSound : Prop :=
  ∀ (s t : State), s.lookupsSound → step s = .next t → t.lookupsSound

/-- Every step keeps each MAPPED cursor's translation equal to the present entry of its page, checked for lane and role
(R104, R109, R112, R113). -/
def Obligations.MappedCursorsAgreeWithThePageMap : Prop :=
  ∀ (s t : State), s.cursorsAgree → step s = .next t → t.cursorsAgree

/-- Every step keeps port FIFOs at 0 to 32 words, those of a disabled direction empty, and words left to move while a beat
holds one (R144, R148, R151, R152, R83, R82, assumption log 32). -/
def Obligations.PortsStaySound : Prop :=
  ∀ (s t : State), s.portsSound → step s = .next t → t.portsSound

/-- Every step keeps the wheel stopped and no beat in progress during a clear pass, and the timer counting only while
RUNNING (R51, R92, R170, R171). -/
def Obligations.NoBeatMeetsAClearPass : Prop :=
  ∀ (s t : State), s.wheelSound → step s = .next t → t.wheelSound
end

