-- ==== Sys2Proof/Laws/Memory.lean ====
section
/-! SUPPORT. What exchange memory reads after a write, and that every memory operation keeps the canonical form (log 8). -/

namespace Sys2Proof.Machine

/-- The listed addresses of a canonical memory lie above its head's. -/
theorem readWord_below {m : List MemCell} {a : Nat} (h : ∀ c ∈ m, a < c.1) : readWord m a = Config.unlistedWord := by
  induction m with
  | nil => rfl
  | cons c rest ih =>
    obtain ⟨b, w⟩ := c
    have hb : a < b := h (b, w) (by simp)
    have : ¬ b = a := by omega
    simp only [readWord, this, if_false]
    exact ih fun c hc => h c (by simp [hc])

/-- A word reads as it was last written. -/
theorem readWord_writeWord_same {m : List MemCell} (h : Memory.wf m) (a : Nat) (v : Word) :
    readWord (writeWord m a v) a = v := by
  induction m with
  | nil =>
    by_cases e : v = Config.unlistedWord
    · simp [writeWord, readWord, e]
    · simp [writeWord, readWord, e]
  | cons c rest ih =>
    obtain ⟨b, w⟩ := c
    obtain ⟨hp, hc⟩ := h
    rw [List.pairwise_cons] at hp
    have hrest : Memory.wf rest := ⟨hp.2, fun c hr => hc c (by simp [hr])⟩
    by_cases e : v = Config.unlistedWord <;> by_cases hl : a < b
    · have hb : ∀ c ∈ ((b, w) :: rest), a < c.1 := by
        intro c hm
        rcases List.mem_cons.mp hm with rfl | hm
        · exact hl
        · exact Nat.lt_trans hl (hp.1 c hm)
      simp only [writeWord, hl, e, if_true]
      exact readWord_below hb
    · by_cases he : a = b
      · subst he
        simp only [writeWord, hl, e, if_true, if_false]
        exact readWord_below hp.1
      · have hne : ¬ b = a := fun q => he q.symm
        simp only [writeWord, hl, he, if_false, readWord, hne]
        exact ih hrest
    · simp [writeWord, readWord, hl, e]
    · by_cases he : a = b
      · subst he
        simp [writeWord, readWord, e]
      · have hne : ¬ b = a := fun q => he q.symm
        simp only [writeWord, hl, he, if_false, readWord, hne]
        exact ih hrest

/-- A write leaves every other word as it was. -/
theorem readWord_writeWord_other (m : List MemCell) {a b : Nat} (v : Word) (h : b ≠ a) :
    readWord (writeWord m a v) b = readWord m b := by
  have h' : ¬ a = b := fun q => h q.symm
  induction m with
  | nil =>
    by_cases e : v = Config.unlistedWord <;> simp [writeWord, readWord, e, h']
  | cons c rest ih =>
    obtain ⟨k, w⟩ := c
    by_cases hl : a < k
    · by_cases e : v = Config.unlistedWord <;> simp [writeWord, readWord, hl, e, h']
    · by_cases he : a = k
      · subst he
        by_cases e : v = Config.unlistedWord <;> simp [writeWord, readWord, e, h']
      · simp only [writeWord, hl, he, if_false, readWord, ih]

/-- Every address a write can list is one that the memory listed or the address written. -/
theorem writeWord_mem {m : List MemCell} {a : Nat} {v : Word} {c : MemCell} (h : c ∈ writeWord m a v) :
    c ∈ m ∨ (c = (a, v) ∧ v ≠ Config.unlistedWord) := by
  induction m with
  | nil =>
    by_cases e : v = Config.unlistedWord <;> simp [writeWord, e] at h
    exact Or.inr ⟨h, e⟩
  | cons d rest ih =>
    obtain ⟨b, w⟩ := d
    by_cases hl : a < b
    · by_cases e : v = Config.unlistedWord
      · simp only [writeWord, hl, e, if_true] at h
        exact Or.inl h
      · simp only [writeWord, hl, e, if_true, if_false] at h
        rcases List.mem_cons.mp h with h | h
        · exact Or.inr ⟨h, e⟩
        · exact Or.inl h
    · by_cases he : a = b
      · by_cases e : v = Config.unlistedWord
        · simp only [writeWord, he, e, if_true] at h
          simp only [Nat.lt_irrefl, if_false] at h
          exact Or.inl (List.mem_cons_of_mem _ h)
        · simp only [writeWord, hl, if_false] at h
          rw [if_pos he, if_neg e] at h
          rcases List.mem_cons.mp h with h | h
          · exact Or.inr ⟨h, e⟩
          · exact Or.inl (List.mem_cons_of_mem _ h)
      · simp only [writeWord, hl, he, if_false] at h
        rcases List.mem_cons.mp h with h | h
        · exact Or.inl (by simp [h])
        · rcases ih h with h | h
          · exact Or.inl (List.mem_cons_of_mem _ h)
          · exact Or.inr h

/-- A write at an address that exists keeps the canonical form. -/
theorem writeWord_wf {m : List MemCell} (h : Memory.wf m) {a : Nat} (v : Word) (ha : a < Config.memoryWords) :
    Memory.wf (writeWord m a v) := by
  induction m with
  | nil =>
    by_cases e : v = Config.unlistedWord <;> simp [writeWord, e, Memory.wf, ha]
  | cons c rest ih =>
    obtain ⟨b, w⟩ := c
    obtain ⟨hp, hc⟩ := h
    have hp' := List.pairwise_cons.mp hp
    have hrest : Memory.wf rest := ⟨hp'.2, fun c hr => hc c (by simp [hr])⟩
    by_cases hl : a < b
    · by_cases e : v = Config.unlistedWord
      · simp only [writeWord, hl, e, if_true]
        exact ⟨hp, hc⟩
      · simp only [writeWord, hl, e, if_true, if_false]
        refine ⟨List.pairwise_cons.mpr ⟨?_, hp⟩, ?_⟩
        · intro d hd
          rcases List.mem_cons.mp hd with rfl | hd
          · exact hl
          · exact Nat.lt_trans hl (hp'.1 d hd)
        · intro d hd
          rcases List.mem_cons.mp hd with rfl | hd
          · exact ⟨ha, e⟩
          · exact hc d hd
    · by_cases he : a = b
      · by_cases e : v = Config.unlistedWord
        · simp only [writeWord, hl, if_false]
          rw [if_pos he, if_pos e]
          exact hrest
        · simp only [writeWord, hl, if_false]
          rw [if_pos he, if_neg e]
          refine ⟨List.pairwise_cons.mpr ⟨?_, hp'.2⟩, ?_⟩
          · intro d hd
            have := hp'.1 d hd
            simp only at this ⊢
            omega
          · intro d hd
            rcases List.mem_cons.mp hd with rfl | hd
            · exact ⟨ha, e⟩
            · exact hc d (by simp [hd])
      · simp only [writeWord, hl, he, if_false]
        have ihr := ih hrest
        refine ⟨List.pairwise_cons.mpr ⟨?_, ihr.1⟩, ?_⟩
        · intro d hd
          rcases writeWord_mem hd with hd | hd
          · exact hp'.1 d hd
          · rw [hd.1]
            simp only
            omega
        · intro d hd
          rcases List.mem_cons.mp hd with rfl | hd
          · exact hc (b, w) (by simp)
          · exact ihr.2 d hd

/-- Every page and offset name a word that exists. -/
theorem physAddr_lt (page : BitVec 6) (offset : BitVec 8) : physAddr page offset < Config.memoryWords := by
  have h1 := page.isLt
  have h2 := offset.isLt
  unfold physAddr Config.memoryWords
  omega

/-- Two words of different pages or offsets are different words. -/
theorem physAddr_inj {p q : BitVec 6} {a b : BitVec 8} (h : physAddr p a = physAddr q b) : p = q ∧ a = b := by
  have h1 := a.isLt
  have h2 := b.isLt
  unfold physAddr at h
  exact ⟨BitVec.eq_of_toNat_eq (by omega), BitVec.eq_of_toNat_eq (by omega)⟩

/-- A write of exchange memory keeps its canonical form. -/
theorem State.writeMem_wf {s : State} (h : Memory.wf s.mem) (page : BitVec 6) (offset : BitVec 8) (v : Word) :
    Memory.wf (s.writeMem page offset v).mem :=
  writeWord_wf h v (physAddr_lt page offset)

/-- Exchange memory reads as it was last written. -/
theorem State.readMem_writeMem_same {s : State} (h : Memory.wf s.mem) (page : BitVec 6) (offset : BitVec 8) (v : Word) :
    (s.writeMem page offset v).readMem page offset = v :=
  readWord_writeWord_same h _ v

/-- A write of exchange memory leaves every other word as it was. -/
theorem State.readMem_writeMem_other (s : State) {p q : BitVec 6} {a b : BitVec 8} (v : Word) (h : (q, b) ≠ (p, a)) :
    (s.writeMem p a v).readMem q b = s.readMem q b := by
  apply readWord_writeWord_other
  intro e
  obtain ⟨e1, e2⟩ := physAddr_inj e
  exact h (by rw [e1, e2])

/-- Reset memory is canonical. -/
theorem memory_reset_wf : Memory.wf State.reset.mem := by
  simp [State.reset, Memory.wf]

end Sys2Proof.Machine
end

