-- ==== Sys2Proof/Laws/State.lean ====
section
/-! SUPPORT. What each update of the state leaves as it was, one lemma per field, and what a lane or a port reads after an
update, so that no later proof unfolds a record update. -/

namespace Sys2Proof.Machine

/-! ### setLane -/

@[simp] theorem State.setLane_beat (s : State) (l : LaneId) (x : Lane) : (s.setLane l x).beat = s.beat := rfl
@[simp] theorem State.setLane_wheel (s : State) (l : LaneId) (x : Lane) : (s.setLane l x).wheel = s.wheel := rfl
@[simp] theorem State.setLane_map (s : State) (l : LaneId) (x : Lane) : (s.setLane l x).map = s.map := rfl
@[simp] theorem State.setLane_signals (s : State) (l : LaneId) (x : Lane) : (s.setLane l x).signals = s.signals := rfl
@[simp] theorem State.setLane_queue (s : State) (l : LaneId) (x : Lane) : (s.setLane l x).queue = s.queue := rfl
@[simp] theorem State.setLane_ints (s : State) (l : LaneId) (x : Lane) : (s.setLane l x).ints = s.ints := rfl
@[simp] theorem State.setLane_ports (s : State) (l : LaneId) (x : Lane) : (s.setLane l x).ports = s.ports := rfl
@[simp] theorem State.setLane_mem (s : State) (l : LaneId) (x : Lane) : (s.setLane l x).mem = s.mem := rfl
@[simp] theorem State.setLane_window (s : State) (l : LaneId) (x : Lane) : (s.setLane l x).window = s.window := rfl
@[simp] theorem State.setLane_clearing (s : State) (l : LaneId) (x : Lane) : (s.setLane l x).clearing = s.clearing := rfl
@[simp] theorem State.setLane_resetPin (s : State) (l : LaneId) (x : Lane) : (s.setLane l x).resetPin = s.resetPin := rfl
@[simp] theorem State.setLane_pending (s : State) (l : LaneId) (x : Lane) : (s.setLane l x).pending = s.pending := rfl

/-! ### updLane -/

@[simp] theorem State.updLane_beat (s : State) (l : LaneId) (f : Lane → Lane) : (s.updLane l f).beat = s.beat := rfl
@[simp] theorem State.updLane_wheel (s : State) (l : LaneId) (f : Lane → Lane) : (s.updLane l f).wheel = s.wheel := rfl
@[simp] theorem State.updLane_map (s : State) (l : LaneId) (f : Lane → Lane) : (s.updLane l f).map = s.map := rfl
@[simp] theorem State.updLane_signals (s : State) (l : LaneId) (f : Lane → Lane) : (s.updLane l f).signals = s.signals := rfl
@[simp] theorem State.updLane_queue (s : State) (l : LaneId) (f : Lane → Lane) : (s.updLane l f).queue = s.queue := rfl
@[simp] theorem State.updLane_ints (s : State) (l : LaneId) (f : Lane → Lane) : (s.updLane l f).ints = s.ints := rfl
@[simp] theorem State.updLane_ports (s : State) (l : LaneId) (f : Lane → Lane) : (s.updLane l f).ports = s.ports := rfl
@[simp] theorem State.updLane_mem (s : State) (l : LaneId) (f : Lane → Lane) : (s.updLane l f).mem = s.mem := rfl
@[simp] theorem State.updLane_window (s : State) (l : LaneId) (f : Lane → Lane) : (s.updLane l f).window = s.window := rfl
@[simp] theorem State.updLane_clearing (s : State) (l : LaneId) (f : Lane → Lane) : (s.updLane l f).clearing = s.clearing := rfl
@[simp] theorem State.updLane_resetPin (s : State) (l : LaneId) (f : Lane → Lane) : (s.updLane l f).resetPin = s.resetPin := rfl
@[simp] theorem State.updLane_pending (s : State) (l : LaneId) (f : Lane → Lane) : (s.updLane l f).pending = s.pending := rfl

/-! ### updPort -/

@[simp] theorem State.updPort_lanes (s : State) (p : PortId) (f : Port → Port) : (s.updPort p f).lanes = s.lanes := rfl
@[simp] theorem State.updPort_beat (s : State) (p : PortId) (f : Port → Port) : (s.updPort p f).beat = s.beat := rfl
@[simp] theorem State.updPort_wheel (s : State) (p : PortId) (f : Port → Port) : (s.updPort p f).wheel = s.wheel := rfl
@[simp] theorem State.updPort_map (s : State) (p : PortId) (f : Port → Port) : (s.updPort p f).map = s.map := rfl
@[simp] theorem State.updPort_signals (s : State) (p : PortId) (f : Port → Port) : (s.updPort p f).signals = s.signals := rfl
@[simp] theorem State.updPort_queue (s : State) (p : PortId) (f : Port → Port) : (s.updPort p f).queue = s.queue := rfl
@[simp] theorem State.updPort_ints (s : State) (p : PortId) (f : Port → Port) : (s.updPort p f).ints = s.ints := rfl
@[simp] theorem State.updPort_mem (s : State) (p : PortId) (f : Port → Port) : (s.updPort p f).mem = s.mem := rfl
@[simp] theorem State.updPort_window (s : State) (p : PortId) (f : Port → Port) : (s.updPort p f).window = s.window := rfl
@[simp] theorem State.updPort_clearing (s : State) (p : PortId) (f : Port → Port) : (s.updPort p f).clearing = s.clearing := rfl
@[simp] theorem State.updPort_resetPin (s : State) (p : PortId) (f : Port → Port) : (s.updPort p f).resetPin = s.resetPin := rfl
@[simp] theorem State.updPort_pending (s : State) (p : PortId) (f : Port → Port) : (s.updPort p f).pending = s.pending := rfl

/-! ### setInt -/

@[simp] theorem State.setInt_lanes (s : State) (b : IntBit) : (s.setInt b).lanes = s.lanes := rfl
@[simp] theorem State.setInt_beat (s : State) (b : IntBit) : (s.setInt b).beat = s.beat := rfl
@[simp] theorem State.setInt_wheel (s : State) (b : IntBit) : (s.setInt b).wheel = s.wheel := rfl
@[simp] theorem State.setInt_map (s : State) (b : IntBit) : (s.setInt b).map = s.map := rfl
@[simp] theorem State.setInt_signals (s : State) (b : IntBit) : (s.setInt b).signals = s.signals := rfl
@[simp] theorem State.setInt_queue (s : State) (b : IntBit) : (s.setInt b).queue = s.queue := rfl
@[simp] theorem State.setInt_ports (s : State) (b : IntBit) : (s.setInt b).ports = s.ports := rfl
@[simp] theorem State.setInt_mem (s : State) (b : IntBit) : (s.setInt b).mem = s.mem := rfl
@[simp] theorem State.setInt_window (s : State) (b : IntBit) : (s.setInt b).window = s.window := rfl
@[simp] theorem State.setInt_clearing (s : State) (b : IntBit) : (s.setInt b).clearing = s.clearing := rfl
@[simp] theorem State.setInt_resetPin (s : State) (b : IntBit) : (s.setInt b).resetPin = s.resetPin := rfl
@[simp] theorem State.setInt_pending (s : State) (b : IntBit) : (s.setInt b).pending = s.pending := rfl

/-! ### refuse -/

@[simp] theorem State.refuse_lanes (s : State) (c : BusCause) (o : WindowOffset) : (s.refuse c o).lanes = s.lanes := rfl
@[simp] theorem State.refuse_beat (s : State) (c : BusCause) (o : WindowOffset) : (s.refuse c o).beat = s.beat := rfl
@[simp] theorem State.refuse_wheel (s : State) (c : BusCause) (o : WindowOffset) : (s.refuse c o).wheel = s.wheel := rfl
@[simp] theorem State.refuse_map (s : State) (c : BusCause) (o : WindowOffset) : (s.refuse c o).map = s.map := rfl
@[simp] theorem State.refuse_signals (s : State) (c : BusCause) (o : WindowOffset) : (s.refuse c o).signals = s.signals := rfl
@[simp] theorem State.refuse_queue (s : State) (c : BusCause) (o : WindowOffset) : (s.refuse c o).queue = s.queue := rfl
@[simp] theorem State.refuse_ports (s : State) (c : BusCause) (o : WindowOffset) : (s.refuse c o).ports = s.ports := rfl
@[simp] theorem State.refuse_mem (s : State) (c : BusCause) (o : WindowOffset) : (s.refuse c o).mem = s.mem := rfl
@[simp] theorem State.refuse_clearing (s : State) (c : BusCause) (o : WindowOffset) : (s.refuse c o).clearing = s.clearing := rfl
@[simp] theorem State.refuse_resetPin (s : State) (c : BusCause) (o : WindowOffset) : (s.refuse c o).resetPin = s.resetPin := rfl
@[simp] theorem State.refuse_pending (s : State) (c : BusCause) (o : WindowOffset) : (s.refuse c o).pending = s.pending := rfl

/-! ### enqueue -/

@[simp] theorem State.enqueue_beat (s : State) (l : LaneId) (r : Role) (p : BitVec 7) : (s.enqueue l r p).beat = s.beat := rfl
@[simp] theorem State.enqueue_wheel (s : State) (l : LaneId) (r : Role) (p : BitVec 7) : (s.enqueue l r p).wheel = s.wheel := rfl
@[simp] theorem State.enqueue_signals (s : State) (l : LaneId) (r : Role) (p : BitVec 7) : (s.enqueue l r p).signals = s.signals := rfl
@[simp] theorem State.enqueue_queue (s : State) (l : LaneId) (r : Role) (p : BitVec 7) : (s.enqueue l r p).queue = s.queue := rfl
@[simp] theorem State.enqueue_ints (s : State) (l : LaneId) (r : Role) (p : BitVec 7) : (s.enqueue l r p).ints = s.ints := rfl
@[simp] theorem State.enqueue_ports (s : State) (l : LaneId) (r : Role) (p : BitVec 7) : (s.enqueue l r p).ports = s.ports := rfl
@[simp] theorem State.enqueue_mem (s : State) (l : LaneId) (r : Role) (p : BitVec 7) : (s.enqueue l r p).mem = s.mem := rfl
@[simp] theorem State.enqueue_window (s : State) (l : LaneId) (r : Role) (p : BitVec 7) : (s.enqueue l r p).window = s.window := rfl
@[simp] theorem State.enqueue_clearing (s : State) (l : LaneId) (r : Role) (p : BitVec 7) : (s.enqueue l r p).clearing = s.clearing := rfl
@[simp] theorem State.enqueue_resetPin (s : State) (l : LaneId) (r : Role) (p : BitVec 7) : (s.enqueue l r p).resetPin = s.resetPin := rfl
@[simp] theorem State.enqueue_pending (s : State) (l : LaneId) (r : Role) (p : BitVec 7) : (s.enqueue l r p).pending = s.pending := rfl

/-! ### markStale -/

@[simp] theorem State.markStale_lanes (s : State) : (s.markStale).lanes = s.lanes := rfl
@[simp] theorem State.markStale_beat (s : State) : (s.markStale).beat = s.beat := rfl
@[simp] theorem State.markStale_wheel (s : State) : (s.markStale).wheel = s.wheel := rfl
@[simp] theorem State.markStale_signals (s : State) : (s.markStale).signals = s.signals := rfl
@[simp] theorem State.markStale_queue (s : State) : (s.markStale).queue = s.queue := rfl
@[simp] theorem State.markStale_ints (s : State) : (s.markStale).ints = s.ints := rfl
@[simp] theorem State.markStale_ports (s : State) : (s.markStale).ports = s.ports := rfl
@[simp] theorem State.markStale_mem (s : State) : (s.markStale).mem = s.mem := rfl
@[simp] theorem State.markStale_window (s : State) : (s.markStale).window = s.window := rfl
@[simp] theorem State.markStale_clearing (s : State) : (s.markStale).clearing = s.clearing := rfl
@[simp] theorem State.markStale_resetPin (s : State) : (s.markStale).resetPin = s.resetPin := rfl
@[simp] theorem State.markStale_pending (s : State) : (s.markStale).pending = s.pending := rfl

/-! ### abandonLookup -/

@[simp] theorem State.abandonLookup_lanes (s : State) : (s.abandonLookup).lanes = s.lanes := rfl
@[simp] theorem State.abandonLookup_beat (s : State) : (s.abandonLookup).beat = s.beat := rfl
@[simp] theorem State.abandonLookup_wheel (s : State) : (s.abandonLookup).wheel = s.wheel := rfl
@[simp] theorem State.abandonLookup_signals (s : State) : (s.abandonLookup).signals = s.signals := rfl
@[simp] theorem State.abandonLookup_queue (s : State) : (s.abandonLookup).queue = s.queue := rfl
@[simp] theorem State.abandonLookup_ints (s : State) : (s.abandonLookup).ints = s.ints := rfl
@[simp] theorem State.abandonLookup_ports (s : State) : (s.abandonLookup).ports = s.ports := rfl
@[simp] theorem State.abandonLookup_mem (s : State) : (s.abandonLookup).mem = s.mem := rfl
@[simp] theorem State.abandonLookup_window (s : State) : (s.abandonLookup).window = s.window := rfl
@[simp] theorem State.abandonLookup_clearing (s : State) : (s.abandonLookup).clearing = s.clearing := rfl
@[simp] theorem State.abandonLookup_resetPin (s : State) : (s.abandonLookup).resetPin = s.resetPin := rfl
@[simp] theorem State.abandonLookup_pending (s : State) : (s.abandonLookup).pending = s.pending := rfl

/-! ### writeMem -/

@[simp] theorem State.writeMem_lanes (s : State) (p : BitVec 6) (o : BitVec 8) (v : Word) : (s.writeMem p o v).lanes = s.lanes := rfl
@[simp] theorem State.writeMem_beat (s : State) (p : BitVec 6) (o : BitVec 8) (v : Word) : (s.writeMem p o v).beat = s.beat := rfl
@[simp] theorem State.writeMem_wheel (s : State) (p : BitVec 6) (o : BitVec 8) (v : Word) : (s.writeMem p o v).wheel = s.wheel := rfl
@[simp] theorem State.writeMem_map (s : State) (p : BitVec 6) (o : BitVec 8) (v : Word) : (s.writeMem p o v).map = s.map := rfl
@[simp] theorem State.writeMem_signals (s : State) (p : BitVec 6) (o : BitVec 8) (v : Word) : (s.writeMem p o v).signals = s.signals := rfl
@[simp] theorem State.writeMem_queue (s : State) (p : BitVec 6) (o : BitVec 8) (v : Word) : (s.writeMem p o v).queue = s.queue := rfl
@[simp] theorem State.writeMem_ints (s : State) (p : BitVec 6) (o : BitVec 8) (v : Word) : (s.writeMem p o v).ints = s.ints := rfl
@[simp] theorem State.writeMem_ports (s : State) (p : BitVec 6) (o : BitVec 8) (v : Word) : (s.writeMem p o v).ports = s.ports := rfl
@[simp] theorem State.writeMem_window (s : State) (p : BitVec 6) (o : BitVec 8) (v : Word) : (s.writeMem p o v).window = s.window := rfl
@[simp] theorem State.writeMem_clearing (s : State) (p : BitVec 6) (o : BitVec 8) (v : Word) : (s.writeMem p o v).clearing = s.clearing := rfl
@[simp] theorem State.writeMem_resetPin (s : State) (p : BitVec 6) (o : BitVec 8) (v : Word) : (s.writeMem p o v).resetPin = s.resetPin := rfl
@[simp] theorem State.writeMem_pending (s : State) (p : BitVec 6) (o : BitVec 8) (v : Word) : (s.writeMem p o v).pending = s.pending := rfl
/-! ### Lanes and ports after an update -/

theorem State.lane_setLane (s : State) (l k : LaneId) (x : Lane) :
    (s.setLane l x).lane k = if k = l then x else s.lane k := by
  have h : (s.setLane l x).lane k = (s.lanes.set l.val x l.isLt)[k.val] := rfl
  rw [h, Vector.getElem_set]
  by_cases e : k = l
  · subst e
    simp
  · have : ¬ l.val = k.val := fun q => e (Fin.ext q.symm)
    simp only [this, e, if_false]
    rfl

@[simp] theorem State.lane_setLane_same (s : State) (l : LaneId) (x : Lane) : (s.setLane l x).lane l = x := by
  simp [State.lane_setLane]

theorem State.lane_setLane_other (s : State) {l k : LaneId} (x : Lane) (h : k ≠ l) :
    (s.setLane l x).lane k = s.lane k := by
  simp [State.lane_setLane, h]

@[simp] theorem State.lane_updLane_same (s : State) (l : LaneId) (f : Lane → Lane) :
    (s.updLane l f).lane l = f (s.lane l) := State.lane_setLane_same s l _

theorem State.lane_updLane (s : State) (l k : LaneId) (f : Lane → Lane) :
    (s.updLane l f).lane k = if k = l then f (s.lane l) else s.lane k := State.lane_setLane s l k _

theorem State.lane_updLane_other (s : State) {l k : LaneId} (f : Lane → Lane) (h : k ≠ l) :
    (s.updLane l f).lane k = s.lane k := State.lane_setLane_other s _ h

theorem State.port_updPort (s : State) (p q : PortId) (f : Port → Port) :
    (s.updPort p f).port q = if q = p then f (s.port p) else s.port q := by
  have h : (s.updPort p f).port q = (s.ports.set p.val (f (s.port p)) p.isLt)[q.val] := rfl
  rw [h, Vector.getElem_set]
  by_cases e : q = p
  · subst e
    simp
  · have : ¬ p.val = q.val := fun r => e (Fin.ext r.symm)
    simp only [this, e, if_false]
    rfl

@[simp] theorem State.port_updPort_same (s : State) (p : PortId) (f : Port → Port) :
    (s.updPort p f).port p = f (s.port p) := by
  simp [State.port_updPort]

theorem State.port_updPort_other (s : State) {p q : PortId} (f : Port → Port) (h : q ≠ p) :
    (s.updPort p f).port q = s.port q := by
  simp [State.port_updPort, h]

/-- A lane reads only the lane table. -/
theorem State.lane_congr {s t : State} (h : t.lanes = s.lanes) (l : LaneId) : t.lane l = s.lane l := by
  unfold State.lane
  rw [h]

/-- A port reads only the ports. -/
theorem State.port_congr {s t : State} (h : t.ports = s.ports) (p : PortId) : t.port p = s.port p := by
  unfold State.port
  rw [h]

@[simp] theorem State.lane_setInt (s : State) (b : IntBit) (l : LaneId) : (s.setInt b).lane l = s.lane l := rfl

@[simp] theorem State.lane_updPort (s : State) (p : PortId) (f : Port → Port) (l : LaneId) :
    (s.updPort p f).lane l = s.lane l := rfl

@[simp] theorem State.port_updLane (s : State) (l : LaneId) (f : Lane → Lane) (p : PortId) :
    (s.updLane l f).port p = s.port p := rfl

@[simp] theorem State.port_setInt (s : State) (b : IntBit) (p : PortId) : (s.setInt b).port p = s.port p := rfl

@[simp] theorem State.lane_markStale (s : State) (l : LaneId) : s.markStale.lane l = s.lane l := rfl

@[simp] theorem State.lane_abandonLookup (s : State) (l : LaneId) : s.abandonLookup.lane l = s.lane l := rfl

theorem State.lane_enqueue (s : State) (l k : LaneId) (r : Role) (p : BitVec 7) :
    (s.enqueue l r p).lane k = if k = l then (s.lane l).setCursor r ⟨p, .pending⟩ else s.lane k :=
  State.lane_updLane s l k fun x => x.setCursor r ⟨p, .pending⟩

/-- Two states with the same lanes by number have the same lane table. -/
theorem State.lanes_ext {s t : State} (h : ∀ l, t.lane l = s.lane l) : t.lanes = s.lanes := by
  apply Vector.ext
  intro i hi
  exact h ⟨i, hi⟩

/-! ### Cursors -/

@[simp] theorem Lane.cursor_setCursor_same (x : Lane) (r : Role) (c : Cursor) : (x.setCursor r c).cursor r = c := by
  cases r <;> rfl

theorem Lane.cursor_setCursor_other (x : Lane) {r q : Role} (c : Cursor) (h : q ≠ r) :
    (x.setCursor r c).cursor q = x.cursor q := by
  cases r <;> cases q <;> first | rfl | exact absurd rfl h

/-- The replacement of a cursor changes nothing else of the lane's context. -/
theorem Lane.setCursor_fields (x : Lane) (r : Role) (c : Cursor) :
    (x.setCursor r c) = { x with
      walk := (x.setCursor r c).walk, hop := (x.setCursor r c).hop
      src := (x.setCursor r c).src, dst := (x.setCursor r c).dst } := by
  cases r <;> rfl

end Sys2Proof.Machine
end

