-- ==== Sys2Proof/Laws/Ops.lean ====
section
/-! SUPPORT. What the shared operations can do, said once: most of them touch one lane, the lookup queue and the lookup in
progress, the interrupt status and the read index of RECORD_WORDS, and nothing else. -/

namespace Sys2Proof.Machine

/-- From `s` to `t` at most one lane's context, the lookup request queue, the lookup in progress, INT_STATUS and the read index
of RECORD_WORDS have changed. -/
structure OnlyLane (l : LaneId) (s t : State) : Prop where
  others : ∀ k, k ≠ l → t.lane k = s.lane k
  beat : t.beat = s.beat
  wheel : t.wheel = s.wheel
  entries : t.map.entries = s.map.entries
  signals : t.signals = s.signals
  queue : t.queue = s.queue
  enable : t.ints.enable = s.ints.enable
  ports : t.ports = s.ports
  mem : t.mem = s.mem
  window : t.window = { s.window with recordIndex := t.window.recordIndex }
  clearing : t.clearing = s.clearing
  resetPin : t.resetPin = s.resetPin
  pending : t.pending = s.pending

theorem OnlyLane.refl (l : LaneId) (s : State) : OnlyLane l s s :=
  ⟨fun _ _ => rfl, rfl, rfl, rfl, rfl, rfl, rfl, rfl, rfl, rfl, rfl, rfl, rfl⟩

theorem OnlyLane.trans {l : LaneId} {s t u : State} (h : OnlyLane l s t) (g : OnlyLane l t u) : OnlyLane l s u where
  others k hk := (g.others k hk).trans (h.others k hk)
  beat := g.beat.trans h.beat
  wheel := g.wheel.trans h.wheel
  entries := g.entries.trans h.entries
  signals := g.signals.trans h.signals
  queue := g.queue.trans h.queue
  enable := g.enable.trans h.enable
  ports := g.ports.trans h.ports
  mem := g.mem.trans h.mem
  window := by
    rw [g.window, h.window]
  clearing := g.clearing.trans h.clearing
  resetPin := g.resetPin.trans h.resetPin
  pending := g.pending.trans h.pending

theorem onlyLane_updLane (l : LaneId) (s : State) (f : Lane → Lane) : OnlyLane l s (s.updLane l f) :=
  ⟨fun _ hk => State.lane_updLane_other s f hk, rfl, rfl, rfl, rfl, rfl, rfl, rfl, rfl, rfl, rfl, rfl, rfl⟩

theorem onlyLane_setInt (l : LaneId) (s : State) (b : IntBit) : OnlyLane l s (s.setInt b) :=
  ⟨fun _ _ => rfl, rfl, rfl, rfl, rfl, rfl, rfl, rfl, rfl, rfl, rfl, rfl, rfl⟩

theorem onlyLane_markStale (l : LaneId) (s : State) : OnlyLane l s s.markStale :=
  ⟨fun _ _ => rfl, rfl, rfl, rfl, rfl, rfl, rfl, rfl, rfl, rfl, rfl, rfl, rfl⟩

theorem onlyLane_abandonLookup (l : LaneId) (s : State) : OnlyLane l s s.abandonLookup :=
  ⟨fun _ _ => rfl, rfl, rfl, rfl, rfl, rfl, rfl, rfl, rfl, rfl, rfl, rfl, rfl⟩

theorem onlyLane_enqueue (l : LaneId) (s : State) (r : Role) (p : BitVec 7) : OnlyLane l s (s.enqueue l r p) :=
  ⟨fun k hk => by simp [State.lane_enqueue, hk], rfl, rfl, rfl, rfl, rfl, rfl, rfl, rfl, rfl, rfl, rfl, rfl⟩

/-! ### Cursors -/

/-- A retarget touches the lane's own cursor and the lookup unit only (R105). -/
theorem onlyLane_retarget (s : State) (l : LaneId) (r : Role) (p : BitVec 7) : OnlyLane l s (retarget s l r p) := by
  unfold retarget
  dsimp only
  split
  · exact onlyLane_enqueue l s r p
  · exact onlyLane_updLane l s _
  · split
    · exact .refl l s
    · exact (onlyLane_updLane l s _).trans (onlyLane_markStale l _)
  · split
    · exact .refl l s
    · exact onlyLane_enqueue l s r p

/-- A release touches the lane's own cursor and the lookup unit only (R106). -/
theorem onlyLane_release (s : State) (l : LaneId) (r : Role) : OnlyLane l s (release s l r) := by
  unfold release
  dsimp only
  split
  · exact .refl l s
  · exact (onlyLane_updLane l s _).trans
      ⟨fun _ _ => rfl, rfl, rfl, rfl, rfl, rfl, rfl, rfl, rfl, rfl, rfl, rfl, rfl⟩
  · exact (onlyLane_updLane l s _).trans (onlyLane_abandonLookup l _)
  · exact onlyLane_updLane l s _

theorem onlyLane_releaseAll (s : State) (l : LaneId) : OnlyLane l s (releaseAll s l) := by
  simp only [releaseAll, allRoles, List.foldl]
  exact (((onlyLane_release s l .walk).trans (onlyLane_release _ l .hop)).trans
    (onlyLane_release _ l .src)).trans (onlyLane_release _ l .dst)

theorem Lane.setCursor_self (x : Lane) (r : Role) : x.setCursor r (x.cursor r) = x := by
  cases r <;> rfl

/-- What a retarget makes of the lane: its one cursor is retargeted (R105). -/
theorem retarget_lane (s : State) (l : LaneId) (r : Role) (p : BitVec 7) :
    (retarget s l r p).lane l = (s.lane l).setCursor r (((s.lane l).cursor r).retargeted p) := by
  unfold retarget Cursor.retargeted
  dsimp only
  cases hst : ((s.lane l).cursor r).status with
  | unset => simp only [State.lane_enqueue, if_true]
  | pending => exact State.lane_updLane_same s l fun x => x.setCursor r ⟨p, .pending⟩
  | inFlight =>
    dsimp only
    by_cases e : ((s.lane l).cursor r).page = p
    · simp only [e, if_true]
      have : (⟨p, .inFlight⟩ : Cursor) = (s.lane l).cursor r := by rw [← e, ← hst]
      rw [this, Lane.setCursor_self]
    · simp only [e, if_false, State.lane_markStale]
      exact State.lane_updLane_same s l fun x => x.setCursor r ⟨p, .inFlight⟩
  | mapped t =>
    dsimp only
    by_cases e : ((s.lane l).cursor r).page = p
    · simp only [e, if_true]
      have : (⟨p, .mapped t⟩ : Cursor) = (s.lane l).cursor r := by rw [← e, ← hst]
      rw [this, Lane.setCursor_self]
    · simp only [e, if_false, State.lane_enqueue, if_true]

/-- An UNSET cursor with a page of its own is no cursor of a run; a release leaves it, and makes any other UNSET (R106). -/
theorem release_lane (s : State) (l : LaneId) (r : Role) :
    (release s l r).lane l =
      if ((s.lane l).cursor r).status = .unset then s.lane l else (s.lane l).setCursor r .unset := by
  unfold release
  dsimp only
  cases hst : ((s.lane l).cursor r).status with
  | unset => simp
  | pending =>
    simp only [reduceCtorEq, if_false]
    exact State.lane_updLane_same s l fun x => x.setCursor r .unset
  | inFlight => simp
  | mapped t => simp

/-! ### Lane states -/

theorem onlyLane_settle (s : State) (l : LaneId) (h : Reasons) : OnlyLane l s (settle s l h) := onlyLane_updLane l s _

theorem onlyLane_enterHalted (s : State) (l : LaneId) (h : HaltReason) (r : Resume) :
    OnlyLane l s (enterHalted s l h r) := (onlyLane_updLane l s _).trans (onlyLane_setInt l _ _)

theorem onlyLane_haltNow (s : State) (l : LaneId) : OnlyLane l s (haltNow s l) := by
  unfold haltNow
  split
  · exact onlyLane_enterHalted s l _ _
  · exact onlyLane_enterHalted s l _ _
  · exact onlyLane_enterHalted s l _ _
  · exact .refl l s

theorem onlyLane_enterFaulted (s : State) (l : LaneId) (f : FaultRecord) : OnlyLane l s (enterFaulted s l f) :=
  ((onlyLane_releaseAll s l).trans (onlyLane_updLane l _ _)).trans (onlyLane_setInt l _ _)

theorem onlyLane_asyncFault (s : State) (l : LaneId) (c : FaultCause) (r : Role) :
    OnlyLane l s (asyncFault s l c r) := by
  unfold asyncFault
  dsimp only
  split
  · split
    · exact onlyLane_updLane l s _
    · exact onlyLane_enterFaulted s l _
  · exact onlyLane_enterFaulted s l _
  · exact onlyLane_enterFaulted s l _
  · exact onlyLane_enterFaulted s l _
  · exact .refl l s

theorem onlyLane_touchCopy (s : State) (l : LaneId) : OnlyLane l s (touchCopy s l) := by
  unfold touchCopy
  split
  · exact ⟨fun _ _ => rfl, rfl, rfl, rfl, rfl, rfl, rfl, rfl, rfl, rfl, rfl, rfl, rfl⟩
  · exact .refl l s

theorem onlyLane_dropCopy (s : State) (l : LaneId) : OnlyLane l s (dropCopy s l) := by
  unfold dropCopy
  split
  · exact (onlyLane_updLane l s _).trans (onlyLane_touchCopy _ l)
  · exact .refl l s

theorem onlyLane_clearLane (s : State) (l : LaneId) (i : LaneState) (c : LaneConfig) :
    OnlyLane l s (clearLane s l i c) :=
  ((onlyLane_dropCopy s l).trans (onlyLane_releaseAll _ l)).trans (onlyLane_updLane l _ _)

theorem onlyLane_enterIdleAtStop (s : State) (l : LaneId) : OnlyLane l s (enterIdleAtStop s l) :=
  ((onlyLane_dropCopy s l).trans (onlyLane_releaseAll _ l)).trans (onlyLane_updLane l _ _)

/-! ### Completion -/

theorem onlyLane_completeAdvance (s : State) (l : LaneId) : OnlyLane l s (completeAdvance s l).1 := by
  have h : OnlyLane l s ((dropCopy s l).updLane l fun x => { x with phase := .load }) :=
    (onlyLane_dropCopy s l).trans (onlyLane_updLane l _ _)
  unfold completeAdvance
  simp only
  split
  · exact h
  · exact (h.trans (onlyLane_updLane l _ _)).trans (onlyLane_retarget _ l _ _)

theorem onlyLane_applyVerdict (s : State) (l : LaneId) (step : Bool) (v : Verdict) :
    OnlyLane l s (applyVerdict s l step v) := by
  cases v with
  | run h w => exact (onlyLane_updLane l s _).trans (onlyLane_settle _ l _)
  | completed =>
    unfold applyVerdict
    simp only
    split
    · exact onlyLane_enterHalted s l _ _
    · exact onlyLane_settle s l _
  | waiting w =>
    exact onlyLane_updLane l s fun x =>
      { x with state := .waiting, reasons := .empty, wait := some w, credit := 0 }
  | breakHalt => exact onlyLane_enterHalted s l _ _
  | idle => exact onlyLane_enterIdleAtStop s l
  | fault f => exact onlyLane_enterFaulted s l f

/-- The completion of a WAIT outside a beat touches its own lane only (R125). -/
theorem onlyLane_completeWait (s : State) (l : LaneId) : OnlyLane l s (completeWait s l) :=
  ((onlyLane_updLane l s fun x => { x with wait := none }).trans (onlyLane_completeAdvance _ l)).trans
    (onlyLane_applyVerdict _ l _ _)

theorem onlyLane_removeReason (s : State) (l : LaneId) (f : Reasons → Reasons) :
    OnlyLane l s (removeReason s l f) := by
  unfold removeReason
  dsimp only
  split
  · split
    · exact onlyLane_settle s l _
    · exact onlyLane_updLane l s _
  · split
    · exact onlyLane_updLane l s _
    · exact .refl l s
  · exact .refl l s

/-! ### The completion queue -/

/-- A push that meets a full queue is not made (R133). -/
theorem push_full {s : State} {l : LaneId} {k : EntryKind} {tag : Half} (h : 32 ≤ s.queue.entries.length) :
    push s l k tag = none := by
  simp [push, Config.queueEntries, h]

/-- A push that finds room appends one entry and advances the sequence counter; it changes nothing else but INT QUEUE
(R132). -/
theorem push_room {s : State} {l : LaneId} {k : EntryKind} {tag : Half} (h : s.queue.entries.length < 32) :
    ∃ t, push s l k tag = some t ∧
      t = { s with queue := t.queue, ints := t.ints } ∧
      t.queue = { s.queue with
        entries := s.queue.entries ++
          [⟨s.queue.nextSequence, l, k, tag, (s.lane l).progress.pointer, s.wheel.slotCount.setWidth 16⟩]
        nextSequence := s.queue.nextSequence + 1 } ∧
      t.ints = { s.ints with
        status := if s.queue.thresholdField.toNat + 1 ≤ s.queue.entries.length + 1
          then s.ints.status ||| 1 else s.ints.status } := by
  have h' : ¬ Config.queueEntries ≤ s.queue.entries.length := by
    unfold Config.queueEntries
    omega
  unfold push
  rw [if_neg h']
  refine ⟨_, rfl, ?_⟩
  have hl : ∀ e : Entry, (s.queue.entries ++ [e]).length = s.queue.entries.length + 1 := by simp
  simp only [hl]
  by_cases e : s.queue.thresholdField.toNat + 1 ≤ s.queue.entries.length + 1
  · simp only [if_pos e]
    exact ⟨rfl, rfl, rfl⟩
  · simp only [if_neg e]
    exact ⟨trivial, trivial, trivial⟩

/-! ### Signals -/

/-- From `s` to `t` no lane but those of a list, and nothing else but the lookup queue, the lookup in progress, INT_STATUS, the
read index of RECORD_WORDS and the signals have changed. -/
structure OnlyLanes (p : LaneId → Prop) (s t : State) : Prop where
  others : ∀ k, ¬ p k → t.lane k = s.lane k
  beat : t.beat = s.beat
  wheel : t.wheel = s.wheel
  entries : t.map.entries = s.map.entries
  queue : t.queue = s.queue
  enable : t.ints.enable = s.ints.enable
  ports : t.ports = s.ports
  mem : t.mem = s.mem
  window : t.window = { s.window with recordIndex := t.window.recordIndex }
  clearing : t.clearing = s.clearing
  resetPin : t.resetPin = s.resetPin
  pending : t.pending = s.pending

theorem OnlyLanes.refl (p : LaneId → Prop) (s : State) : OnlyLanes p s s :=
  ⟨fun _ _ => rfl, rfl, rfl, rfl, rfl, rfl, rfl, rfl, rfl, rfl, rfl, rfl⟩

theorem OnlyLanes.trans {p : LaneId → Prop} {s t u : State} (h : OnlyLanes p s t) (g : OnlyLanes p t u) :
    OnlyLanes p s u where
  others k hk := (g.others k hk).trans (h.others k hk)
  beat := g.beat.trans h.beat
  wheel := g.wheel.trans h.wheel
  entries := g.entries.trans h.entries
  queue := g.queue.trans h.queue
  enable := g.enable.trans h.enable
  ports := g.ports.trans h.ports
  mem := g.mem.trans h.mem
  window := by rw [g.window, h.window]
  clearing := g.clearing.trans h.clearing
  resetPin := g.resetPin.trans h.resetPin
  pending := g.pending.trans h.pending

theorem OnlyLane.toLanes {p : LaneId → Prop} {l : LaneId} {s t : State} (h : OnlyLane l s t) (hl : p l) :
    OnlyLanes p s t where
  others k hk := h.others k fun e => hk (e ▸ hl)
  beat := h.beat
  wheel := h.wheel
  entries := h.entries
  queue := h.queue
  enable := h.enable
  ports := h.ports
  mem := h.mem
  window := h.window
  clearing := h.clearing
  resetPin := h.resetPin
  pending := h.pending

/-- A fold of one-lane operations over lanes of a set touches that set only. -/
theorem onlyLanes_foldl {p : LaneId → Prop} {f : State → LaneId → State} (hf : ∀ s l, OnlyLane l s (f s l)) :
    ∀ (ls : List LaneId) (s : State), (∀ l ∈ ls, p l) → OnlyLanes p s (ls.foldl f s)
  | [], s, _ => .refl p s
  | l :: ls, s, h =>
    ((hf s l).toLanes (h l (by simp))).trans (onlyLanes_foldl hf ls (f s l) fun k hk => h k (by simp [hk]))

/-- A lane a signal wakes is WAITING, with the signal in its wait's mask (R124). -/
theorem wokenBy_waiter {s : State} {n : SignalId} {l : LaneId} (h : l ∈ wokenBy s n) : isWaiter s n l = true := by
  unfold wokenBy at h
  exact (List.mem_filter.mp (List.mem_filter.mp h).1).2

theorem waiter_waiting {s : State} {n : SignalId} {l : LaneId} (h : isWaiter s n l = true) :
    (s.lane l).state = .waiting := by
  unfold isWaiter at h
  simp only [Bool.and_eq_true, beq_iff_eq] at h
  exact h.1

/-- A set of one signal touches the lanes it wakes only (R124, R125). -/
theorem onlyLanes_setSignal (s : State) (n : SignalId) : OnlyLanes (fun l => isWaiter s n l = true) s (setSignal s n) := by
  unfold setSignal
  split
  · exact .refl _ s
  · simp only
    have base : ∀ t : State, t = s ∨ t = { s with signals := s.signals ||| BitVec.twoPow 16 n.val } →
        OnlyLanes (fun l => isWaiter s n l = true) s t := by
      intro t ht
      rcases ht with rfl | rfl
      · exact .refl _ _
      · exact ⟨fun _ _ => rfl, rfl, rfl, rfl, rfl, rfl, rfl, rfl, rfl, rfl, rfl, rfl⟩
    refine (base _ ?_).trans (onlyLanes_foldl onlyLane_completeWait _ _ fun l hl => wokenBy_waiter hl)
    split
    · exact Or.inl rfl
    · exact Or.inr rfl

end Sys2Proof.Machine
end

