-- ==== Sys2Proof/Laws/Beats.lean ====
section
/-! SUPPORT. What the word accesses of a beat, the beginning of a beat and the map unit's shared operations can change. -/

namespace Sys2Proof.Machine

/-- A beat begins and nothing else changes (R59, R69). -/
theorem beginBeat_frame (s : State) (l : LaneId) : beginBeat s l = { s with beat := (beginBeat s l).beat } := by
  unfold beginBeat
  dsimp only
  split <;> rfl

/-- The reads of a LOAD beat change the beat only (R70, R73). -/
theorem recordLoad_frame (s : State) (n : Nat) : recordLoad s n = { s with beat := (recordLoad s n).beat } := by
  unfold recordLoad
  split
  · split <;> rfl
  · rfl

/-- The read of a cell changes the beat only (R70, R95). -/
theorem cellRead_frame (s : State) : cellRead s = { s with beat := (cellRead s).beat } := by
  unfold cellRead
  split
  · split
    · split <;> rfl
    · rfl
  · rfl

/-- The read of a word step changes the ports only (R83). -/
theorem readSource_frame (s : State) (t : Translation) (a : LAddr) :
    (readSource s t a).2 = { s with ports := (readSource s t a).2.ports } := by
  unfold readSource
  split
  · rfl
  · split <;> rfl

/-- The tests and the read of a word step change the beat and the ports only (R82, R83). -/
theorem wordRead_frame (s : State) : wordRead s = { s with beat := (wordRead s).beat, ports := (wordRead s).ports } := by
  unfold wordRead
  split
  · split
    · split
      · rfl
      · dsimp only
        rw [readSource_frame]
    · rfl
  · rfl

/-- The write of a word step changes the ports and exchange memory only (R83). -/
theorem writeDestination_frame (s : State) (t : Translation) (a : LAddr) (h : HeldWord) :
    writeDestination s t a h =
      { s with ports := (writeDestination s t a h).ports, mem := (writeDestination s t a h).mem } := by
  unfold writeDestination
  split
  · rfl
  · split <;> rfl

/-- The write and the counts of a word step change the beat, the ports and exchange memory only (R83). -/
theorem wordWrite_frame (s : State) : wordWrite s =
    { s with beat := (wordWrite s).beat, ports := (wordWrite s).ports, mem := (wordWrite s).mem } := by
  unfold wordWrite
  split
  · split
    · dsimp only
      rw [writeDestination_frame]
    · rfl
  · rfl

/-- A word step changes the beat, the ports and exchange memory only (R70, R83). -/
theorem wordStep_frame (s : State) (part : WordStepPart) : wordStep s part =
    { s with beat := (wordStep s part).beat, ports := (wordStep s part).ports, mem := (wordStep s part).mem } := by
  have hr := wordRead_frame s
  have hm : (wordRead s).mem = s.mem := by rw [hr]
  cases part with
  | read =>
    show wordRead s = { s with beat := (wordRead s).beat, ports := (wordRead s).ports, mem := (wordRead s).mem }
    rw [hm]
    exact hr
  | write => exact wordWrite_frame s
  | whole =>
    show wordWrite (wordRead s) = { s with
      beat := (wordWrite (wordRead s)).beat, ports := (wordWrite (wordRead s)).ports
      mem := (wordWrite (wordRead s)).mem }
    generalize wordRead s = u at hr
    have hu := wordWrite_frame u
    generalize wordWrite u = v at hu
    rw [hr] at hu
    exact hu

/-! ### The map unit's shared operations -/

theorem onlyLane_takeMapping (s : State) (l : LaneId) : OnlyLane l s (takeMapping s l) := by
  unfold takeMapping
  split
  · exact onlyLane_removeReason s l _
  · exact .refl l s

theorem onlyLane_failLookup (s : State) (l : LaneId) (r : Role) (c : FaultCause) :
    OnlyLane l s (failLookup s l r c) := by
  unfold failLookup
  dsimp only
  split
  · exact (onlyLane_asyncFault s l c r).trans (onlyLane_release _ l r)
  · exact onlyLane_asyncFault s l c r

theorem onlyLane_loseMapping (s : State) (l : LaneId) : OnlyLane l s (loseMapping s l) := by
  unfold loseMapping
  dsimp only
  split
  · exact .refl l s
  · split
    · split
      · exact .refl l s
      · exact onlyLane_settle s l _
    · exact onlyLane_updLane l s _
    · exact .refl l s

theorem onlyLane_shootCursor (p : BitVec 7) (s : State) (l : LaneId) (r : Role) :
    OnlyLane l s (shootCursor p s l r) := by
  unfold shootCursor
  dsimp only
  split
  · exact (onlyLane_enqueue l s r p).trans (onlyLane_loseMapping _ l)
  · exact .refl l s

/-- A lookup completion touches the lane it looked up for and the lookup unit (R109 to R111). -/
theorem onlyLane_lookupCompletion (s : State) (k : Lookup) (h : s.map.lookup = some k) :
    OnlyLane k.lane s (lookupCompletion s) := by
  have free : OnlyLane k.lane s { s with map := { s.map with lookup := none } } :=
    ⟨fun _ _ => rfl, rfl, rfl, rfl, rfl, rfl, rfl, rfl, rfl, rfl, rfl, rfl, rfl⟩
  unfold lookupCompletion
  rw [h]
  dsimp only
  split
  · exact free
  · exact free.trans (onlyLane_enqueue k.lane _ _ _)
  · split
    · exact (free.trans (onlyLane_updLane k.lane _ _)).trans (onlyLane_takeMapping _ _)
    · exact free.trans (onlyLane_failLookup _ _ _ _)

end Sys2Proof.Machine
end

