-- ==== Sys2Proof/Laws/Exec.lean ====
section
/-! SUPPORT. What holds of every command: each answers a next state, and an event leaves a part in RESET alone. -/

namespace Sys2Proof.Machine

/-- Every command answers a next state: no meaning faults and none refuses. -/
theorem exec_total (c : Instr) (s : State) : ∃ t, exec c s = .next t := by
  cases c <;> exact ⟨_, rfl⟩

/-- Every step answers a next state. -/
theorem step_total (s : State) : ∃ t, step s = .next t := by
  unfold step
  split
  · exact exec_total _ _
  · exact ⟨_, rfl⟩

/-- An event runs while RESET is not asserted. -/
theorem unlessReset_run {s : State} (h : s.resetPin = false) (f : State → State) : unlessReset s f = f s := by
  simp [unlessReset, h]

/-- An event leaves a part in RESET alone (R171). -/
theorem unlessReset_held {s : State} (h : s.resetPin = true) (f : State → State) : unlessReset s f = s := by
  simp [unlessReset, h]

/-- What an event leaves is what it makes of the state, or the state itself. -/
theorem unlessReset_cases {p : State → Prop} {s : State} {f : State → State} (hs : p s)
    (hf : s.resetPin = false → p (f s)) : p (unlessReset s f) := by
  cases h : s.resetPin
  · rw [unlessReset_run h]
    exact hf h
  · rw [unlessReset_held h]
    exact hs

end Sys2Proof.Machine
end

