-- ==== Sys2Proof/Laws/Window.lean ====
section
/-! SUPPORT. What the fields of a window item read bit by bit (11.4 to 11.7), and what the timeout of one lane can do. -/

namespace Sys2Proof.Machine

/-- A flag reads at its own bit and nowhere else. -/
theorem getLsbD_bitAt (b : Bool) (n i : Nat) : (bitAt b n).getLsbD i = (b && decide (i < 16) && decide (n = i)) := by
  unfold bitAt
  cases b
  · simp
  · by_cases h : n = i <;> simp [BitVec.getLsbD_twoPow, h]

/-- A field reads from its lowest bit upward. -/
theorem getLsbD_fieldAt {w : Nat} (v : BitVec w) (n i : Nat) :
    (fieldAt v n).getLsbD i = (decide (i < 16) && decide (n ≤ i) && v.getLsbD (i - n)) := by
  unfold fieldAt
  by_cases h : i < 16 <;> by_cases h2 : n ≤ i <;> simp [BitVec.getLsbD_shiftLeft, h, h2]

/-- A number reads as its binary digits, cut to 16. -/
theorem getLsbD_natHalf (n i : Nat) : (natHalf n).getLsbD i = (decide (i < 16) && n.testBit i) := by
  simp [natHalf, BitVec.getLsbD_ofNat]

/-- The timeout of one lane is a slot tick or nothing (log 6, log 2). -/
theorem waitTimeout_cases (s : State) (l : LaneId) : waitTimeout s l = slotTick s ∨ waitTimeout s l = s := by
  unfold waitTimeout
  split
  · split
    · exact .inl rfl
    · exact .inr rfl
  · exact .inr rfl

end Sys2Proof.Machine
end

