-- ==== Sys2Proof/WellFormed.lean ====
section
/-! DEFINITION. Which operands make a command an instance of its row of the opcode table. Every meaning is total: a host access
whose operands belong to another row is taken as that row's access (log 16), so nothing rests on this check but the naming. -/

namespace Sys2Proof

/-- Whether a write of an item has no row of its own, so that REGISTER_WRITE is its row (R174, summary of the table). -/
def isRegisterWriteItem : Item → Bool
  | .globalCommand => false
  | .aperturePage => false
  | .intStatus => false
  | .intEnable => false
  | .signalSet => false
  | .signalClear => false
  | .tableSelect => false
  | .slotPeriod => false
  | .laneCommand => false
  | .laneSelect => false
  | .recordPointer => false
  | .laneConfig => false
  | .queueThreshold => false
  | .queuePop => false
  | .portStatus _ => false
  | .portCounter _ _ => false
  | .scheduleEntry _ _ => false
  | .split _ .low => false
  | .split .slotCount .high => true
  | .split .beats .high => true
  | .split _ .high => false
  | .unused => false
  | _ => true

/-- The command's operands fit its row: the unknown lane command codes are 0 and 7, the unknown global command codes 0 and 6 to
15, REGISTER_WRITE names an item without a row of its own, UNUSED_OFFSET_ACCESS an offset without an item, and an offset
names a halfword (R161). -/
def Instr.wellFormed : Instr → Bool
  | .laneCommandUnknown _ code => code == 0 || code == 7
  | .globalCommandUnknown code => code == 0 || decide (5 < code.toNat)
  | .registerWrite offset _ =>
    offset.getLsbD 0 == false && isRegisterWriteItem (Machine.itemAt offset)
  | .unusedOffsetAccess offset _ => offset.getLsbD 0 == false && Machine.itemAt offset == .unused
  | _ => true

end Sys2Proof
end

