-- ==== Sys2Proof/Tests/Slice0.lean ====
section
/-! SUPPORT. The model's own tests: well-formedness, a few one-step tests from the spec's examples, and for every statement with
hypotheses a concrete state and operands that meet them, clause by clause. -/

namespace Sys2Proof.Tests

set_option Elab.async false

open Sys2Proof Sys2Proof.Machine

/-! ### Small states -/

/-- The part after its clear pass. -/
def up : State := { State.reset with clearing := false }

/-- The part with its wheel RUNNING at the beginning of a slot. -/
def running : State := { up with wheel := { up.wheel with running := true, timer := some ⟨256, 0⟩ } }

/-- The part with a full completion queue. -/
def full : State := { up with queue := ⟨List.replicate 32 ⟨0, 0, .post, 0, 0, 0⟩, 0, 0⟩ }

/-- A MAPPED cursor. -/
def mapped (page : BitVec 7) : Cursor := ⟨page, .mapped (.memory 5 true true)⟩

/-- An ACTIVE lane at logical address 0x0400 in a phase, its cursors MAPPED. -/
def worker (phase : Phase) : Lane :=
  { Lane.reset with
    state := .active, phase := phase, progress := .cleared 0x0400, walk := mapped 4, hop := mapped 5
    src := mapped 5, dst := mapped 6 }

/-- A lane in a state that holds nothing else. -/
def idler (state : LaneState) : Lane := { Lane.reset with state := state }

/-- A WAITING lane. -/
def waiter (w : Wait) : Lane := { worker .load with state := .waiting, wait := some w }

/-- A HALTED lane. -/
def halter (resume : Resume) : Lane :=
  { worker .load with state := .halted, haltReason := some .host, resume := some resume }

/-- Lane 5 of a part in a context. -/
def with5 (s : State) (x : Lane) : State := s.setLane 5 x

/-- Port 1 of a part in a configuration. -/
def with1 (s : State) (x : Port) : State := s.updPort 1 fun _ => x

/-- A beat of lane 5 on a record at 0x0400. -/
def beat5 (work : BeatWork) (r : RecordCopy) : Beat :=
  ⟨5, false, 4, { Progress.cleared 0x0400 with current := some r }, work⟩

/-- A part with a beat of lane 5 in progress. -/
def inBeat (s : State) (b : Beat) (x : Lane) : State := { with5 s x with beat := some b }

/-- A TRANSFER beat's memory target, on logical page 5 or 6. -/
def mem5 : BeatCursor := ⟨5, .memory 7 true true⟩

/-- A TRANSFER beat's memory target on logical page 6. -/
def mem6 : BeatCursor := ⟨6, .memory 8 true true⟩

/-- A MOVE of four words from 0x0500 to 0x0600. -/
def move : RecordCopy := ⟨0x20000004, 0x0500, 0x0600, 0⟩

/-- A MOVE with POST_AFTER and SIGNAL_AFTER of signal 3. -/
def movePost : RecordCopy := ⟨0x23030004, 0x0500, 0x0600, 0x77⟩

/-- A MOVE with an indirect source. -/
def moveIndirect : RecordCopy := ⟨0x20000004, 0x80000500, 0x0600, 0⟩

/-- A MOVE with an indirect destination. -/
def moveIndirectDst : RecordCopy := ⟨0x20000004, 0x0500, 0x80000600, 0⟩

/-- A LINK to 0x0410 with a repeat. -/
def link (n : Nat) : RecordCopy := ⟨0x40000000 ||| BitVec.ofNat 32 n, 0x0410, 0, 0⟩

/-- A POST. -/
def post : RecordCopy := ⟨0x60000000, 0, 0, 0xA1⟩

/-- A WAIT for signal 2 with consume. -/
def wait2 : RecordCopy := ⟨0x88000000, 4, 0, 0⟩

/-- A STOP with POST_AFTER. -/
def stopPost : RecordCopy := ⟨0xC2000000, 0, 0, 0xFF⟩

/-- A TRANSFER beat between words, with words left to move. -/
def moving (src dst : BeatCursor) (moved : Nat) : Beat :=
  { beat5 (.transfer src dst moved none none) move with
    progress := { (beat5 .dispatch move).progress with
      remaining := 4, sourcePosition := 0x0500, destinationPosition := 0x0600 } }

/-- A RESOLVE beat that has read the target of an indirect LINK at 0x7FFC, its third cell. -/
def lastRead : Beat :=
  { beat5 (.resolve mem5 (some 0x00000500)) ⟨0x40000003, 0x80000410, 0, 0⟩ with
    progress := { (beat5 .dispatch ⟨0x40000003, 0x80000410, 0, 0⟩).progress with
      pointer := 0x7FFC, resolveTarget := .link, hopCount := 3, resolvedSource := 0x0510 } }

/-- A port with both directions enabled. -/
def enabled : Port := { Port.reset with rxEnable := true, txEnable := true }

/-- A port with both FIFOs full. -/
def crammed : Port := { enabled with rxFifo := List.replicate 32 1, txFifo := List.replicate 32 1 }

/-- A lane in DISPATCH with a deferred request. -/
def asked (d : Option Deferred) : Lane := { worker .dispatch with deferred := d }

/-- A lane with another LINK's repeat record. -/
def repeating (x : Lane) : Lane := { x with repeatRecord := some ⟨0x0800, 1⟩ }

/-- A lane in RESOLVE whose LINK at an address is in its last pass. -/
def lastPass (a : LAddr) : Lane := { worker .resolve with repeatRecord := some ⟨a, 1⟩ }

/-- A LINK with a repeat of 1. -/
def link1 : RecordCopy := ⟨0x40000001, 0x0410, 0, 0⟩

/-- A port IN_FRAME with a number of bits exchanged. -/
def framed (bits : Nat) (capture : Bool) (rx : List Word) : Port :=
  { enabled with inFrame := true, bits := bits, capture := capture, rxFifo := rx }

/-- A lookup for lane 5's WALK cursor in progress. -/
def looking (d : Disposition) (x : Lane) : State :=
  { with5 up { x with walk := ⟨4, if d = .abandoned then .pending else .inFlight⟩ } with
    map := ⟨up.map.entries, if d = .abandoned then [(5, .walk)] else [], some ⟨5, .walk, 4, d⟩⟩ }

/-- A page map with page 4 readable by every lane. -/
def mappedPage (s : State) : State :=
  { s with map := { s.map with entries := s.map.entries.set 4 ⟨true, .memory, true, true, 0, 5, 0xFFF⟩ } }

/-- A part whose wheel's next entry names lane 5. -/
def serving5 (s : State) : State :=
  { s with wheel := { s.wheel with tableA := s.wheel.tableA.set 0 ⟨false, false, 5⟩ } }

/-- A part whose write latch names an item. -/
def latched (tag : LatchTag) : State := { up with window := { up.window with writeLatch := some ⟨0x1234, tag⟩ } }

/-! ### Hypotheses checked on one state -/

/-- What holds of nothing holds of all. -/
theorem forall_of_none {α : Type} {o : Option α} {P : α → Prop} (h : o = none) : ∀ a, o = some a → P a := by
  intro a ha; rw [h] at ha; cases ha

/-- What holds of the one value there is holds of all. -/
theorem forall_of_some {α : Type} {o : Option α} {P : α → Prop} {b : α} (h : o = some b) (hb : P b) :
    ∀ a, o = some a → P a := by
  intro a ha; rw [h] at ha; cases ha; exact hb

/-- What holds of the four roles holds of all. -/
theorem forall_role {P : Role → Prop} (h : ∀ r ∈ allRoles, P r) : ∀ r, P r := by
  intro r; cases r <;> exact h _ (by decide)

/-- The soundness of the lookup unit as a computation. -/
abbrev lookupsCheck (s : State) : Prop :=
  s.map.queue.Nodup ∧
  (∀ l : LaneId, ∀ r ∈ allRoles, (l, r) ∈ s.map.queue ↔ ((s.lane l).cursor r).status = .pending) ∧
  (∀ l : LaneId, ∀ r ∈ allRoles, ((s.lane l).cursor r).status = .inFlight ↔
    (s.map.lookup.any fun k => k.disposition != .abandoned && k.lane == l && k.role == r) = true) ∧
  ((s.map.lookup.all fun k => k.disposition != .live || ((s.lane k.lane).cursor k.role).page == k.page) = true) ∧
  (∀ l : LaneId, ∀ r ∈ allRoles, ((s.lane l).cursor r).status = .unset → ((s.lane l).cursor r).page = 0) ∧
  ∀ l : LaneId, (s.lane l).state = .off ∨ (s.lane l).state = .idle ∨ (s.lane l).state = .faulted →
    ∀ r ∈ allRoles, (s.lane l).cursor r = .unset

/-- The computation is sound. -/
theorem lookupsSound_of_check {s : State} (h : lookupsCheck s) : s.lookupsSound := by
  obtain ⟨h1, h2, h3, h4, h5, h6⟩ := h
  refine ⟨h1, fun l => forall_role (h2 l), fun l => forall_role fun r hr => (h3 l r hr).trans ?_, ?_,
    fun l => forall_role (h5 l), fun l hl => forall_role (h6 l hl)⟩
  · cases hk : s.map.lookup with
    | none => simp
    | some k => simp [and_assoc]
  · intro k hk hd
    rw [hk] at h4
    simpa [hd] using h4

/-- The consistency of the lanes of a part with no beat in progress and no request deferred. -/
theorem lanesConsistent_of_check {s : State}
    (h : (∀ l, (s.lane l).consistent) ∧ s.beat = none ∧ ∀ l, (s.lane l).deferred = none) : s.lanesConsistent :=
  ⟨h.1, forall_of_none h.2.1, fun l hl => by rw [h.2.2 l] at hl; cases hl⟩

/-- No set signal is awaited, as a computation. -/
theorem signalsUnawaited_of_check {s : State}
    (h : ∀ l, (s.lane l).state = .waiting → ((s.lane l).wait.all fun w => s.signals &&& w.mask == 0) = true) :
    s.signalsUnawaited := by
  intro l w hl hw
  have h := h l hl
  rw [hw] at h
  simpa using h

/-- Every MAPPED cursor agrees with the page map, as a computation. -/
theorem cursorsAgree_of_check {s : State}
    (h : ∀ l : LaneId, ∀ r ∈ allRoles, ((s.lane l).cursor r).isMapped = true →
      (s.mapEntry ((s.lane l).cursor r).page).check l r = none ∧
        ((s.lane l).cursor r).status = .mapped (s.mapEntry ((s.lane l).cursor r).page).translation) :
    s.cursorsAgree := by
  intro l r target ht
  have h := h l r (by cases r <;> decide) (by simp [Cursor.isMapped, ht])
  refine ⟨h.1, ?_⟩
  rw [ht] at h
  injection h.2

/-! ### Well-formedness: an ill-formed command for each check -/

theorem test_wellFormed_laneCommandUnknown :
    (Instr.laneCommandUnknown 5 7).wellFormed = true ∧ (Instr.laneCommandUnknown 15 0).wellFormed = true ∧
      (Instr.laneCommandUnknown 5 1).wellFormed = false ∧ (Instr.laneCommandUnknown 5 6).wellFormed = false := by
  decide

theorem test_wellFormed_globalCommandUnknown :
    (Instr.globalCommandUnknown 6).wellFormed = true ∧ (Instr.globalCommandUnknown 0).wellFormed = true ∧
      (Instr.globalCommandUnknown 3).wellFormed = false ∧ (Instr.globalCommandUnknown 5).wellFormed = false := by
  decide

theorem test_wellFormed_registerWrite :
    (Instr.registerWrite 0x062 0x8001).wellFormed = true ∧ (Instr.registerWrite 0x000 0).wellFormed = true ∧
      (Instr.registerWrite 0x063 0).wellFormed = false ∧ (Instr.registerWrite 0x012 1).wellFormed = false := by
  decide +kernel

theorem test_wellFormed_unusedOffsetAccess :
    (Instr.unusedOffsetAccess 0x180 .read).wellFormed = true ∧
      (Instr.unusedOffsetAccess 0x1FE (.write 5)).wellFormed = true ∧
      (Instr.unusedOffsetAccess 0x181 .read).wellFormed = false ∧
      (Instr.unusedOffsetAccess 0x17E .read).wellFormed = false := by
  decide +kernel

/-! ### One step each -/

/-- Whether a command answers a next state that passes a check. -/
def answers (c : Instr) (s : State) (check : State → Bool) : Bool :=
  match exec c s with
  | .next t => check t
  | _ => false

/-- PART_CODE reads 0x3208 (R173). -/
theorem test_part_code_reads :
    answers (.unusedOffsetAccess 0x002 .read) up (fun t => t.window.readData == 0x3208) = true := by
  decide +kernel

/-- The clear pass that the release of RESET begins ends with INT CLEAR_DONE (R170). -/
theorem test_clear_pass_end :
    answers .clearPassEnd .reset (fun t => !t.clearing && t.ints.status == 0x80 && t.mem == []) = true := by
  decide +kernel

/-- START of a head at 0x0400 leaves the lane BLOCKED on MAP with WALK PENDING on page 4 (R29). -/
theorem test_start_blocks_on_map :
    answers (.start 5) { with5 up (idler .idle) with window := { up.window with laneArgument := 0x0400 } }
      (fun t => (t.lane 5).state == .blocked && (t.lane 5).walk == ⟨4, .pending⟩ && t.map.queue == [(5, .walk)] &&
        t.window.laneResult == .accepted) = true := by
  decide +kernel

/-- A lookup that finds its page makes the lane ACTIVE (R110). -/
theorem test_lookup_makes_ready :
    answers .lookupCompletion (mappedPage (looking .live { idler .blocked with reasons := ⟨true, false, false⟩ }))
      (fun t => (t.lane 5).state == .active && t.ready 5) = true := by
  decide +kernel

/-- An unmapped page faults the lane (R111). -/
theorem test_lookup_faults :
    answers .lookupCompletion (looking .live { idler .blocked with reasons := ⟨true, false, false⟩ })
      (fun t => (t.lane 5).state == .faulted && t.ints.status == 0x02 &&
        (t.lane 5).fault == some ⟨.unmapped, 0, 0, .walk, 0⟩) = true := by
  decide +kernel

/-- A tick serves the READY lane its entry names (R53). -/
theorem test_tick_serves :
    answers .slotTick (with5 (serving5 running) (worker .load))
      (fun t => t.beat.isSome && t.wheel.position == 1 && t.wheel.slotCount == 1) = true := by
  decide +kernel

/-- RECORD_LOAD reads the four words of the record (R73). -/
theorem test_record_load :
    answers (.recordLoad 3) (inBeat { up with mem := [(7 * 256, 0x60000000), (7 * 256 + 3, 0xA1)] }
        (beat5 (.load mem5 []) move) (worker .load))
      (fun t => (t.beat.bind fun b => b.progress.current) == some ⟨0x60000000, 0, 0, 0xA1⟩) = true := by
  decide +kernel

/-- The end of the LOAD beat of a POST pushes the entry and advances the pointer (R77, R16). -/
theorem test_post_at_load :
    answers .beatEnd (inBeat up (beat5 (.load mem5 [0x60000000, 0, 0, 0xA1]) post) (worker .load))
      (fun t => t.queue.entries == [⟨0, 5, .post, 0xA1, 0x0400, 0⟩] && t.ints.status == 0x01 &&
        (t.lane 5).progress.pointer == 0x0404 && (t.lane 5).state == .active) = true := by
  decide +kernel

/-- A word step copies one word between two physical pages (R83). -/
theorem test_word_step :
    answers (.wordStep .whole) (inBeat { up with mem := [(7 * 256, 0x11223344)] } (moving mem5 mem6 0) (worker .transfer))
      (fun t => t.readMem 8 0 == 0x11223344 && t.mem == [(7 * 256, 0x11223344), (8 * 256, 0x11223344)]) = true := by
  decide +kernel

/-- Of a consuming and a plain waiter both are woken, and the signal ends clear (R124). -/
theorem test_signal_wakes :
    answers (.signalSet 4) ((with5 up (waiter ⟨4, true, 0, false, 0⟩)).setLane 7 (waiter ⟨6, false, 0, false, 0⟩))
      (fun t => (t.lane 5).state == .active && (t.lane 7).state == .active && t.signals == 0) = true := by
  decide +kernel

/-- A redirect keeps the WALK mapping of its page (R39). -/
theorem test_redirect_keeps_mapping :
    answers (.recordPointerWrite 0x0440) (up.setLane 0 (halter .active))
      (fun t => (t.lane 0).progress.pointer == 0x0440 && (t.lane 0).walk == mapped 4 && t.map.queue == []) = true := by
  decide +kernel

/-- An aperture word is written whole at its high half, and a second high-half write is refused (R164). -/
theorem test_aperture_commit :
    answers (.apertureWordCommit 3 0xABCD) (latched (.physical 0 3))
        (fun t => t.readMem 0 3 == 0xABCD1234 && t.window.writeLatch.isNone) = true ∧
      answers (.apertureWordCommit 3 0xABCD) up
        (fun t => t.window.capture == ⟨some .splitOrder, 0x40E, 1⟩ && t.ints.status == 0x40) = true := by
  decide +kernel

/-- A strobe pops the oldest word, and an empty FIFO sends the idle word as an underrun (R145). -/
theorem test_frame_start :
    answers (.frameStart 1) (with1 up { enabled with txFifo := [7, 8] })
        (fun t => (t.port 1).shiftWord == 7 && (t.port 1).txFifo == [8] && (t.port 1).inFrame) = true ∧
      answers (.frameStart 1) (with1 up { enabled with idleWord := 9 })
        (fun t => (t.port 1).shiftWord == 9 && (t.port 1).underrunFlag && t.ints.status == 0x08) = true := by
  decide +kernel

/-- The 32nd bit completes the word and pushes it (R146). -/
theorem test_frame_end :
    answers (.sckPeriod 1 true) (with1 up { framed 31 true [] with received := 0xAAAAAAAA })
      (fun t => (t.port 1).rxFifo == [0xAAAAAAAB] && !(t.port 1).inFrame) = true := by
  decide +kernel

/-- The seventh indirect cell faults CHAIN_DEPTH at the cell (R99). -/
theorem test_chain_depth :
    answers .beatEnd
        (inBeat up { beat5 (.resolve mem5 (some 0x80000510)) move with
          progress := { (beat5 .dispatch move).progress with hopCount := 7, resolvedSource := 0x0500 } }
          (worker .resolve))
      (fun t => (t.lane 5).fault == some ⟨.chainDepth, 0x0400, 0x0500, .hop, 7⟩) = true := by
  decide +kernel

/-- An indirect LINK at 0x7FFC that falls through faults RANGE, and the resolution does not end: hop count, resolve target and
cell address stay as the read left them (R16, R95, R97). -/
theorem test_fall_through_at_the_end :
    answers .beatEnd (inBeat up lastRead (lastPass 0x7FFC))
      (fun t => (t.lane 5).fault == some ⟨.range, 0x7FFC, 0x7FFC, .walk, 0⟩ && (t.lane 5).repeatRecord == none &&
        (t.lane 5).progress.hopCount == 3 && (t.lane 5).progress.resolveTarget == .link &&
        (t.lane 5).progress.resolvedSource == 0x0510) = true := by
  decide +kernel

/-- The timeout of one lane is the slot tick, which takes every last count in ascending lane number: with one entry vacant,
lane 5 posts and completes, and lane 6 holds its entry (R126, R127). -/
theorem test_timeouts_in_lane_order :
    answers (.waitTimeout 6)
        ((with5 { running with queue := { full.queue with entries := List.replicate 31 ⟨0, 0, .post, 0, 0, 0⟩ } }
          (waiter ⟨4, true, 1, true, 9⟩)).setLane 6 (waiter ⟨4, true, 1, true, 8⟩))
      (fun t => t.queue.entries.getLast? == some ⟨0, 5, .timeout, 9, 0x0400, 1⟩ && (t.lane 5).progress.pointer == 0x0404 &&
        (t.lane 6).pendingPost == some ⟨.timeout, 8⟩ && (t.lane 6).state == .blocked && t.wheel.slotCount == 1) = true := by
  decide +kernel

/-- LANE_STATE of a lane BLOCKED on PORT in phase TRANSFER: state 3, phase 3 at bit 3, PORT at bit 7 (11.4). -/
theorem test_lane_state_reads :
    answers (.unusedOffsetAccess 0x070 .read)
      (up.setLane 0 { worker .transfer with
        state := .blocked, reasons := ⟨false, true, false⟩, portWait := some ⟨1, .rx⟩ })
      (fun t => t.window.readData == 0x009B) = true := by
  decide +kernel

/-- A step runs the front command and leaves the rest of the queue (log 1). -/
theorem test_front_command_runs :
    (match step { State.reset with pending := [.signalSet 1, .signalSet 2] } with
      | .next t => t.signals == 1 && t.pending == [.signalSet 2]
      | _ => false) = true := by
  decide +kernel

/-! ### The hypotheses of the statements are met -/

/-- The hypotheses of StepRunsTheFrontCommandOrOneTimebaseTick are met, clause by clause. -/
theorem witness_StepRunsTheFrontCommandOrOneTimebaseTick :
    (∃ (s : State), s.pending = [] ∧ s.resetPin = false ∧ s.wheel.timer = none) ∧
    (∃ (s : State) (t : SlotTimer), s.pending = [] ∧ s.resetPin = false ∧ s.wheel.timer = some t ∧ t.elapsed + 1 <
    t.length) ∧
    (∃ (s : State) (t : SlotTimer), s.pending = [] ∧ s.resetPin = false ∧ s.wheel.timer = some t ∧ t.length ≤
    t.elapsed + 1) :=
  ⟨⟨up, by decide +kernel⟩,
   ⟨running, ⟨256, 0⟩, by decide +kernel⟩,
   ⟨{ running with wheel := { running.wheel with timer := some ⟨256, 255⟩ } }, ⟨256, 255⟩, by decide +kernel⟩⟩

/-- The hypotheses of ReadsByOffsetReturnTheItem are met, clause by clause. -/
theorem witness_ReadsByOffsetReturnTheItem :
    (∃ (s : State) (x : Lane), x = s.lane s.window.laneSelect ∧ s.resetPin = false) ∧
    (∃ (s : State) (p : PortId) (y : Port), s.resetPin = false ∧ y = s.port p ∧ y.rxFifo.length ≤ 32 ∧ y.txFifo.length
    ≤ 32) ∧
    (∃ (s : State) (e : Fin 32) (x : ScheduleEntry), x = s.wheel.tableA.get e ∧ s.resetPin = false) ∧
    (∃ (s : State) (e : Fin 32) (x : ScheduleEntry), x = s.wheel.tableB.get e ∧ s.resetPin = false) :=
  ⟨⟨with5 up (worker .load), Lane.reset, rfl, by decide +kernel⟩,
   ⟨with1 up crammed, 1, crammed, by decide +kernel⟩,
   ⟨up, 31, ⟨false, true, 0⟩, rfl, by decide +kernel⟩,
   ⟨up, 31, ⟨false, true, 0⟩, rfl, by decide +kernel⟩⟩

/-- The hypotheses of ResetHoldsThePart are met, clause by clause. -/
theorem witness_ResetHoldsThePart :
    (∃ (s : State) (c : Instr), s.resetPin = true ∧ isResetCommand c = false) ∧
    (∃ (s : State), s.resetPin = true ∧ s.pending = []) :=
  ⟨⟨{ up with resetPin := true }, .signalSet 1, by decide +kernel⟩,
   ⟨{ up with resetPin := true }, by decide +kernel⟩⟩

/-- The hypotheses of ResetAssertGivesDeviceResetValues are met, clause by clause. -/
theorem witness_ResetAssertGivesDeviceResetValues :
    ∃ (s : State), s.resetPin = true :=
  ⟨{ up with resetPin := true }, by decide +kernel⟩

/-- The hypotheses of SoftResetKeepsConfigurationAndMemory are met, clause by clause. -/
theorem witness_SoftResetKeepsConfigurationAndMemory :
    ∃ (s : State), s.resetPin = false :=
  ⟨up, by decide +kernel⟩

/-- The hypotheses of EraseAndTheClearPass are met, clause by clause. -/
theorem witness_EraseAndTheClearPass :
    (∃ (s : State), s.resetPin = false ∧ s.clearing = false) ∧
    (∃ (s : State), s.resetPin = false ∧ s.clearing = true) :=
  ⟨⟨up, by decide +kernel⟩,
   ⟨State.reset, by decide +kernel⟩⟩

/-- The hypotheses of WheelStartStopAndRewind are met, clause by clause. -/
theorem witness_WheelStartStopAndRewind :
    (∃ (s : State), s.resetPin = false ∧ s.wheel.running = true) ∧
    (∃ (s : State), s.resetPin = false ∧ s.wheel.running = false) :=
  ⟨⟨running, by decide +kernel⟩,
   ⟨up, by decide +kernel⟩⟩

/-- The hypotheses of CommandFieldsThatNameNothingAreAnswered are met, clause by clause. -/
theorem witness_CommandFieldsThatNameNothingAreAnswered :
    (∃ (s : State) (lane : BitVec 4) (code : BitVec 3), s.resetPin = false ∧ lane.toNat < 12 ∧ (code = 0 ∨ code = 7))
    ∧
    (∃ (s : State) (code : BitVec 4), s.resetPin = false ∧ (code = 0 ∨ 5 < code.toNat)) ∧
    (∃ (s : State) (lane : BitVec 4) (code : BitVec 3) (c : Instr), s.resetPin = false ∧ 12 ≤ lane.toNat ∧ c ∈
    ([.enable lane, .disable lane, .start lane, .halt lane, .resume lane, .abort lane, .laneCommandUnknown lane code]
    : List Instr)) :=
  ⟨⟨up, 11, 7, by decide +kernel⟩,
   ⟨up, 15, by decide +kernel⟩,
   ⟨up, 12, 0, .start 12, by decide +kernel⟩⟩

/-- The hypotheses of RefusalCaptureHoldsTheFirstRefusal are met, clause by clause. -/
theorem witness_RefusalCaptureHoldsTheFirstRefusal :
    (∃ (s : State), s.resetPin = false ∧ s.window.capture.count = 0) ∧
    (∃ (s : State), s.resetPin = false ∧ s.window.capture.count ≠ 0) ∧
    (∃ (s : State) (offset : WindowOffset), s.resetPin = false ∧ offset ∈ ([0x028, 0x02A, 0x02C] : List WindowOffset))
    :=
  ⟨⟨up, by decide +kernel⟩,
   ⟨up.refuse .badLane 0x060, by decide +kernel⟩,
   ⟨up, 0x02C, by decide +kernel⟩⟩

/-- The hypotheses of EnableTakesAnOffLaneToIdle are met, clause by clause. -/
theorem witness_EnableTakesAnOffLaneToIdle :
    (∃ (s : State) (lane : BitVec 4) (l : LaneId), s.resetPin = false ∧ laneOfField lane = some l ∧ (s.lane l).state =
    .off ∧ s.clearing = false ∧ s.window.laneArgument.getLsbD 15 = false ∧ s.window.laneArgument.extractLsb' 0 2 = 0)
    ∧
    (∃ (s : State) (lane : BitVec 4) (l : LaneId), s.resetPin = false ∧ laneOfField lane = some l ∧ (s.lane l).state ≠
    .off) :=
  ⟨⟨{ up with window := { up.window with laneArgument := 0x7FFC } }, 11, 11, by decide +kernel⟩,
   ⟨with5 up (idler .idle), 5, 5, by decide +kernel⟩⟩

/-- The hypotheses of DisableClearsTheLane are met, clause by clause. -/
theorem witness_DisableClearsTheLane :
    (∃ (s : State) (lane : BitVec 4) (l : LaneId), s.lookupsSound ∧ s.resetPin = false ∧ laneOfField lane = some l ∧
    ((s.lane l).state = .idle ∨ (s.lane l).state = .halted ∨ (s.lane l).state = .faulted)) ∧
    (∃ (s : State) (lane : BitVec 4) (l : LaneId), s.lookupsSound ∧ s.resetPin = false ∧ laneOfField lane = some l ∧
    ((s.lane l).state = .off ∨ (s.lane l).state = .active ∨ (s.lane l).state = .blocked ∨ (s.lane l).state =
    .waiting)) ∧
    (∃ (s : State) (lane : BitVec 4) (l : LaneId), s.lookupsSound ∧ s.resetPin = false ∧ laneOfField lane = some l ∧
    (s.lane l).state = .off) :=
  ⟨⟨with5 up (halter .active), 5, 5, lookupsSound_of_check (by decide +kernel), by decide +kernel⟩,
   ⟨with5 up (worker .load), 5, 5, lookupsSound_of_check (by decide +kernel), by decide +kernel⟩,
   ⟨up, 5, 5, lookupsSound_of_check (by decide +kernel), by decide +kernel⟩⟩

/-- The hypotheses of AbortLeavesTheLaneIdle are met, clause by clause. -/
theorem witness_AbortLeavesTheLaneIdle :
    (∃ (s : State) (lane : BitVec 4) (l : LaneId), s.lookupsSound ∧ s.resetPin = false ∧ laneOfField lane = some l ∧
    (s.lane l).state = .off) ∧
    (∃ (s : State) (lane : BitVec 4) (l : LaneId), s.lookupsSound ∧ s.resetPin = false ∧ laneOfField lane = some l ∧
    (s.lane l).state = .active ∧ s.ownBeat l = true) ∧
    (∃ (s : State) (lane : BitVec 4) (l : LaneId), s.lookupsSound ∧ s.resetPin = false ∧ laneOfField lane = some l ∧
    (s.lane l).state ≠ .off ∧ ((s.lane l).state = .active → s.ownBeat l = false)) :=
  ⟨⟨up, 5, 5, lookupsSound_of_check (by decide +kernel), by decide +kernel⟩,
   ⟨inBeat up (beat5 .dispatch move) (worker .dispatch), 5, 5, lookupsSound_of_check (by decide +kernel),
    by decide +kernel⟩,
   ⟨with5 up (worker .load), 5, 5, lookupsSound_of_check (by decide +kernel), by decide +kernel⟩⟩

/-- The hypotheses of StartBeginsAWorkList are met, clause by clause. -/
theorem witness_StartBeginsAWorkList :
    (∃ (s : State) (lane : BitVec 4) (l : LaneId), s.lookupsSound ∧ s.resetPin = false ∧ laneOfField lane = some l ∧
    (s.lane l).state ≠ .idle) ∧
    (∃ (s : State) (lane : BitVec 4) (l : LaneId), s.lookupsSound ∧ s.resetPin = false ∧ laneOfField lane = some l ∧
    (s.lane l).state = .idle ∧ s.clearing = true) ∧
    (∃ (s : State) (lane : BitVec 4) (l : LaneId), s.lookupsSound ∧ s.resetPin = false ∧ laneOfField lane = some l ∧
    (s.lane l).state = .idle ∧ s.clearing = false ∧ ((s.window.laneArgument.getLsbD 15 = true ∨
    s.window.laneArgument.getLsbD 1 = true ∨ s.window.laneArgument.getLsbD 0 = true))) ∧
    (∃ (s : State) (lane : BitVec 4) (l : LaneId), s.lookupsSound ∧ s.resetPin = false ∧ laneOfField lane = some l ∧
    (s.lane l).state = .idle ∧ s.clearing = false ∧ s.window.laneArgument.getLsbD 15 = false ∧
    s.window.laneArgument.getLsbD 1 = false ∧ s.window.laneArgument.getLsbD 0 = false) :=
  ⟨⟨up, 0, 0, lookupsSound_of_check (by decide +kernel), by decide +kernel⟩,
   ⟨with5 State.reset (idler .idle), 5, 5, lookupsSound_of_check (by decide +kernel), by decide +kernel⟩,
   ⟨{ with5 up (idler .idle) with window := { up.window with laneArgument := 0x0402 } }, 5, 5, lookupsSound_of_check
    (by decide +kernel), by decide +kernel⟩,
   ⟨{ with5 up (idler .idle) with window := { up.window with laneArgument := 0x7FFC } }, 5, 5, lookupsSound_of_check
    (by decide +kernel), by decide +kernel⟩⟩

/-- The hypotheses of HaltStopsALaneBetweenBeats are met, clause by clause. -/
theorem witness_HaltStopsALaneBetweenBeats :
    (∃ (s : State) (lane : BitVec 4) (l : LaneId), s.resetPin = false ∧ laneOfField lane = some l ∧ ((s.lane
    l).deferred.isSome = true ∨ (s.lane l).state = .off ∨ (s.lane l).state = .idle ∨ (s.lane l).state = .halted ∨
    (s.lane l).state = .faulted)) ∧
    (∃ (s : State) (lane : BitVec 4) (l : LaneId), s.resetPin = false ∧ laneOfField lane = some l ∧ (s.lane
    l).deferred = none ∧ (s.lane l).state = .active ∧ s.ownBeat l = true) ∧
    (∃ (s : State) (lane : BitVec 4) (l : LaneId), s.resetPin = false ∧ laneOfField lane = some l ∧ (s.lane
    l).deferred = none ∧ (((s.lane l).state = .active ∧ s.ownBeat l = false) ∨ (s.lane l).state = .blocked ∨ (s.lane
    l).state = .waiting)) :=
  ⟨⟨up, 5, 5, by decide +kernel⟩,
   ⟨inBeat up (beat5 .dispatch move) (worker .dispatch), 5, 5, by decide +kernel⟩,
   ⟨with5 up (waiter ⟨4, true, 0, false, 9⟩), 5, 5, by decide +kernel⟩⟩

/-- The hypotheses of ResumeReevaluatesTheResumeState are met, clause by clause. -/
theorem witness_ResumeReevaluatesTheResumeState :
    (∃ (s : State) (lane : BitVec 4) (l : LaneId), s.lookupsSound ∧ s.resetPin = false ∧ laneOfField lane = some l ∧
    (s.lane l).state ≠ .halted) ∧
    (∃ (s : State) (lane : BitVec 4) (l : LaneId), s.lookupsSound ∧ s.resetPin = false ∧ laneOfField lane = some l ∧
    (s.lane l).state = .halted ∧ (s.lane l).resume = some .active) ∧
    (∃ (s : State) (lane : BitVec 4) (l : LaneId) (held : Reasons), s.lookupsSound ∧ s.resetPin = false ∧ laneOfField
    lane = some l ∧ (s.lane l).state = .halted ∧ (s.lane l).resume = some (.blocked held)) ∧
    (∃ (s : State) (lane : BitVec 4) (l : LaneId) (w : Wait), s.lookupsSound ∧ s.resetPin = false ∧ laneOfField lane =
    some l ∧ (s.lane l).state = .halted ∧ (s.lane l).resume = some .waiting ∧ (s.lane l).wait = some w ∧ s.signals &&&
    w.mask = 0) ∧
    (∃ (s : State) (lane : BitVec 4) (l : LaneId) (w : Wait) (n : SignalId), s.lookupsSound ∧ s.resetPin = false ∧
    laneOfField lane = some l ∧ (s.lane l).state = .halted ∧ (s.lane l).resume = some .waiting ∧ (s.lane l).wait =
    some w ∧ (s.signals &&& w.mask).getLsbD n.val = true ∧ (∀ m : SignalId, m < n → (s.signals &&& w.mask).getLsbD
    m.val = false)) :=
  ⟨⟨up, 5, 5, lookupsSound_of_check (by decide +kernel), by decide +kernel⟩,
   ⟨with5 up (halter .active), 5, 5, lookupsSound_of_check (by decide +kernel), by decide +kernel⟩,
   ⟨with5 up (halter (.blocked ⟨true, false, true⟩)), 5, 5, ⟨true, false, true⟩, lookupsSound_of_check
    (by decide +kernel), by decide +kernel⟩,
   ⟨with5 up { halter .waiting with wait := some ⟨4, true, 0, false, 9⟩ }, 5, 5, ⟨4, true, 0, false, 9⟩,
    lookupsSound_of_check (by decide +kernel), by decide +kernel⟩,
   ⟨{ with5 up { halter .waiting with wait := some ⟨0x8004, true, 0, false, 9⟩ } with signals := 0x8000 }, 5, 5, ⟨0x8004,
    true, 0, false, 9⟩, 15, lookupsSound_of_check (by decide +kernel), by decide +kernel⟩⟩

/-- The hypotheses of RecordPointerWriteRedirectsAHaltedLane are met, clause by clause. -/
theorem witness_RecordPointerWriteRedirectsAHaltedLane :
    (∃ (s : State), s.lookupsSound ∧ s.resetPin = false ∧ (s.lane s.window.laneSelect).state ≠ .halted) ∧
    (∃ (s : State) (v : Half), s.lookupsSound ∧ s.resetPin = false ∧ (s.lane s.window.laneSelect).state = .halted ∧
    ((v.getLsbD 15 = true ∨ v.getLsbD 1 = true ∨ v.getLsbD 0 = true))) ∧
    (∃ (s : State) (v : Half), s.lookupsSound ∧ s.resetPin = false ∧ (s.lane s.window.laneSelect).state = .halted ∧
    v.getLsbD 15 = false ∧ v.getLsbD 1 = false ∧ v.getLsbD 0 = false) :=
  ⟨⟨up, lookupsSound_of_check (by decide +kernel), by decide +kernel⟩,
   ⟨up.setLane 0 (halter .active), 0x8000, lookupsSound_of_check (by decide +kernel), by decide +kernel⟩,
   ⟨up.setLane 0 (halter .active), 0x7FFC, lookupsSound_of_check (by decide +kernel), by decide +kernel⟩⟩

/-- The hypotheses of LaneConfigurationSelectionAndRecordWords are met, clause by clause. -/
theorem witness_LaneConfigurationSelectionAndRecordWords :
    (∃ (s : State) (v : Half) (l : LaneId), s.resetPin = false ∧ (v.extractLsb' 0 4).toNat = l.val) ∧
    (∃ (s : State) (v : Half), s.resetPin = false ∧ 12 ≤ (v.extractLsb' 0 4).toNat) :=
  ⟨⟨up, 11, 11, by decide +kernel⟩,
   ⟨up, 12, by decide +kernel⟩⟩

/-- The hypotheses of WheelItemWrites are met, clause by clause. -/
theorem witness_WheelItemWrites :
    (∃ (s : State) (table : Table), s.resetPin = false ∧ table = s.wheel.active) ∧
    (∃ (s : State) (table : Table) (v : Half), s.resetPin = false ∧ table ≠ s.wheel.active ∧ v.getLsbD 14 = false ∧ 12
    ≤ (v.extractLsb' 0 4).toNat) ∧
    (∃ (s : State) (table : Table) (v : Half), s.resetPin = false ∧ table ≠ s.wheel.active ∧ (v.getLsbD 14 = true ∨
    (v.extractLsb' 0 4).toNat < 12)) ∧
    (∃ (s : State) (v : Half), s.resetPin = false ∧ 8 ≤ v.toNat) ∧
    (∃ (s : State) (v : Half), s.resetPin = false ∧ v.toNat < 8) :=
  ⟨⟨up, .a, by decide +kernel⟩,
   ⟨up, .b, 12, by decide +kernel⟩,
   ⟨up, .b, 0x4000 ||| 12, by decide +kernel⟩,
   ⟨up, 8, by decide +kernel⟩,
   ⟨up, 7, by decide +kernel⟩⟩

/-- The hypotheses of SplitReadsLatchTheHighHalf are met, clause by clause. -/
theorem witness_SplitReadsLatchTheHighHalf :
    (∃ (s : State) (item : Item32) (k : Latch), s.resetPin = false ∧ refusedClearing s item = false ∧
    s.window.readLatch = some k ∧ k.tag = item32Tag s item) ∧
    (∃ (s : State) (item : Item32), (∀ k, s.window.readLatch = some k → k.tag ≠ item32Tag s item) ∧ s.resetPin = false
    ∧ refusedClearing s item = false) ∧
    (∃ (s : State) (item : Item32), s.resetPin = false ∧ refusedClearing s item = true) ∧
    (∃ (s : State) (page : BitVec 7) (e : MapEntry), s.resetPin = false ∧ e = s.mapEntry page) ∧
    (∃ (s : State) (item : Item32), (∀ w, item ≠ .aperture w) ∧ s.resetPin = false) :=
  ⟨⟨{ up with window := { up.window with readLatch := some ⟨1, .slotCount⟩ } }, .slotCount, ⟨1, .slotCount⟩,
    by decide +kernel⟩,
   ⟨up, .aperture 255, forall_of_none (by decide +kernel), by decide +kernel⟩,
   ⟨State.reset, .aperture 0, by decide +kernel⟩,
   ⟨up, 127, MapEntry.reset, by decide +kernel⟩,
   ⟨State.reset, .mapEntry 127, nofun, by decide +kernel⟩⟩

/-- The hypotheses of SplitWritesReachMemoryWholeOrNotAtAll are met, clause by clause. -/
theorem witness_SplitWritesReachMemoryWholeOrNotAtAll :
    (∃ (s : State) (item : Item32), s.resetPin = false ∧ s.memoryCanonical ∧ (item = .slotCount ∨ item = .beats)) ∧
    (∃ (s : State) (item : Item32), s.resetPin = false ∧ s.memoryCanonical ∧ refusedClearing s item = true) ∧
    (∃ (s : State) (item : Item32), s.resetPin = false ∧ s.memoryCanonical ∧ item ≠ .slotCount ∧ item ≠ .beats ∧
    refusedClearing s item = false) ∧
    (∃ (s : State), s.resetPin = false ∧ s.memoryCanonical ∧ s.clearing = true) ∧
    (∃ (s : State) (w : BitVec 8), (∀ k, s.window.writeLatch = some k → k.tag ≠ .physical s.window.aperturePage w) ∧
    s.resetPin = false ∧ s.memoryCanonical ∧ s.clearing = false) ∧
    (∃ (s : State) (w : BitVec 8) (low : Half), s.resetPin = false ∧ s.memoryCanonical ∧ s.clearing = false ∧
    s.window.writeLatch = some ⟨low, .physical s.window.aperturePage w⟩) :=
  ⟨⟨up, .beats, by decide +kernel⟩,
   ⟨State.reset, .aperture 255, by decide +kernel⟩,
   ⟨up, .aperture 255, by decide +kernel⟩,
   ⟨State.reset, by decide +kernel⟩,
   ⟨up, 255, forall_of_none (by decide +kernel), by decide +kernel⟩,
   ⟨latched (.physical 0 255), 255, 0x1234, by decide +kernel⟩⟩

/-- The hypotheses of MapEntryCommitRunsTheShootdown are met, clause by clause. -/
theorem witness_MapEntryCommitRunsTheShootdown :
    (∃ (s : State) (page : BitVec 7), (∀ k, s.window.writeLatch = some k → k.tag ≠ .mapEntry page) ∧ s.resetPin =
    false) ∧
    (∃ (s : State) (page : BitVec 7) (v : Half) (low : Half), s.resetPin = false ∧ s.window.writeLatch = some ⟨low,
    .mapEntry page⟩ ∧ v.extractLsb' 12 2 = 3) ∧
    (∃ (s : State) (page : BitVec 7) (v : Half) (low : Half), s.resetPin = false ∧ s.window.writeLatch = some ⟨low,
    .mapEntry page⟩ ∧ v.extractLsb' 12 2 ≠ 3) :=
  ⟨⟨up, 127, forall_of_none (by decide +kernel), by decide +kernel⟩,
   ⟨latched (.mapEntry 127), 127, 0x3000, 0x1234, by decide +kernel⟩,
   ⟨latched (.mapEntry 127), 127, 0x8C05, 0x1234, by decide +kernel⟩⟩

/-- The hypotheses of SignalSetWakesItsWaiters are met, clause by clause. -/
theorem witness_SignalSetWakesItsWaiters :
    (∃ (s : State) (v : Half), s.lookupsSound ∧ s.resetPin = false ∧ v = 0) ∧
    (∃ (s : State) (v : Half) (n : SignalId), s.lookupsSound ∧ s.resetPin = false ∧ v.getLsbD n.val = true ∧ (∀ m :
    SignalId, m < n → v.getLsbD m.val = false)) ∧
    (∃ (s : State) (n : SignalId), s.lookupsSound ∧ s.resetPin = false ∧ s.signals.getLsbD n.val = true) ∧
    (∃ (s : State) (n : SignalId), s.lookupsSound ∧ s.resetPin = false ∧ s.signals.getLsbD n.val = false) :=
  ⟨⟨up, 0, lookupsSound_of_check (by decide +kernel), by decide +kernel⟩,
   ⟨up, 0x8000, 15, lookupsSound_of_check (by decide +kernel), by decide +kernel⟩,
   ⟨{ up with signals := 0x8000 }, 15, lookupsSound_of_check (by decide +kernel), by decide +kernel⟩,
   ⟨with5 up (waiter ⟨0x8000, true, 0, false, 9⟩), 15, lookupsSound_of_check (by decide +kernel), by decide +kernel⟩⟩

/-- The hypotheses of SignalClearThresholdAndInterruptWrites are met, clause by clause. -/
theorem witness_SignalClearThresholdAndInterruptWrites :
    ∃ (s : State), s.resetPin = false :=
  ⟨up, by decide +kernel⟩

/-- The hypotheses of QueuePopReleasesEveryLaneThatHoldsQueue are met, clause by clause. -/
theorem witness_QueuePopReleasesEveryLaneThatHoldsQueue :
    (∃ (s : State), s.resetPin = false ∧ s.queue.entries = []) ∧
    (∃ (s : State) (e : Entry) (rest : List Entry), s.queue.entries = e :: rest ∧ s.resetPin = false) :=
  ⟨⟨up, by decide +kernel⟩,
   ⟨full, _, _, rfl, by decide +kernel⟩⟩

/-- The hypotheses of PortWritesThatDisableNothing are met, clause by clause. -/
theorem witness_PortWritesThatDisableNothing :
    (∃ (s : State) (p : PortId) (v : Half), s.resetPin = false ∧ ((s.port p).txEnable = true → v.getLsbD 1 = true)) ∧
    (∃ (s : State) (p : PortId) (v : Half), s.resetPin = false ∧ ((s.port p).rxEnable = true → v.getLsbD 0 = true)) ∧
    (∃ (s : State) (p : PortId) (low : Half), s.resetPin = false ∧ s.window.writeLatch = some ⟨low, .idleWord p⟩) ∧
    (∃ (s : State) (p : PortId), (∀ k, s.window.writeLatch = some k → k.tag ≠ .idleWord p) ∧ s.resetPin = false) :=
  ⟨⟨with1 up enabled, 1, 2, by decide +kernel⟩,
   ⟨with1 up enabled, 1, 1, by decide +kernel⟩,
   ⟨latched (.idleWord 3), 3, 0x1234, by decide +kernel⟩,
   ⟨up, 3, forall_of_none (by decide +kernel), by decide +kernel⟩⟩

/-- The hypotheses of PortDisablesEmptyAndFault are met, clause by clause. -/
theorem witness_PortDisablesEmptyAndFault :
    (∃ (s : State) (p : PortId) (v : Half), s.lanesConsistent ∧ s.lookupsSound ∧ s.resetPin = false ∧ ((s.port
    p).txEnable = true → v.getLsbD 1 = true) ∧ (s.port p).rxEnable = true) ∧
    (∃ (s : State) (p : PortId) (v : Half), s.lanesConsistent ∧ s.lookupsSound ∧ s.resetPin = false ∧ ((s.port
    p).txEnable = true → v.getLsbD 1 = true) ∧ (s.port p).rxEnable = false) ∧
    (∃ (s : State) (p : PortId) (v : Half), s.lanesConsistent ∧ s.lookupsSound ∧ s.resetPin = false ∧ ((s.port
    p).rxEnable = true → v.getLsbD 0 = true) ∧ (s.port p).txEnable = true) ∧
    (∃ (s : State) (p : PortId) (v : Half), s.lanesConsistent ∧ s.lookupsSound ∧ s.resetPin = false ∧ ((s.port
    p).rxEnable = true → v.getLsbD 0 = true) ∧ (s.port p).txEnable = false) ∧
    (∃ (s : State) (p : PortId) (v : Half), s.lanesConsistent ∧ s.lookupsSound ∧ s.resetPin = false ∧ v.getLsbD 1 =
    false ∧ (s.port p).txEnable = true) ∧
    (∃ (s : State) (v : Half), s.lanesConsistent ∧ s.lookupsSound ∧ s.resetPin = false ∧ v.getLsbD 0 = false) :=
  ⟨⟨with1 up enabled, 1, 2, lanesConsistent_of_check (by decide +kernel), lookupsSound_of_check (by decide +kernel),
    by decide +kernel⟩,
   ⟨up, 1, 0, lanesConsistent_of_check (by decide +kernel), lookupsSound_of_check (by decide +kernel), by decide +kernel⟩,
   ⟨with1 up enabled, 1, 1, lanesConsistent_of_check (by decide +kernel), lookupsSound_of_check (by decide +kernel),
    by decide +kernel⟩,
   ⟨up, 1, 0, lanesConsistent_of_check (by decide +kernel), lookupsSound_of_check (by decide +kernel), by decide +kernel⟩,
   ⟨with1 up enabled, 1, 0, lanesConsistent_of_check (by decide +kernel), lookupsSound_of_check (by decide +kernel),
    by decide +kernel⟩,
   ⟨up, 0, lanesConsistent_of_check (by decide +kernel), lookupsSound_of_check (by decide +kernel), by decide +kernel⟩⟩

/-- The hypotheses of RegisterWritesByOffset are met, clause by clause. -/
theorem witness_RegisterWritesByOffset :
    (∃ (s : State) (offset : WindowOffset), s.resetPin = false ∧ offset ∈ ([0x000, 0x002, 0x004, 0x010, 0x014, 0x028,
    0x02A, 0x02C, 0x030, 0x040, 0x046, 0x048, 0x04A, 0x04C, 0x064, 0x068, 0x06A, 0x070, 0x072, 0x078, 0x07A, 0x07C,
    0x07E, 0x080, 0x082, 0x084, 0x086, 0x088, 0x08A, 0x08C, 0x08E, 0x090, 0x092, 0x094, 0x096, 0x098, 0x09A, 0x09C,
    0x09E, 0x0A0, 0x0A2, 0x0A4, 0x0A6, 0x0A8, 0x0AA] : List WindowOffset)) ∧
    (∃ (s : State) (v : Half) (row : WindowOffset × Instr), s.resetPin = false ∧ row ∈ ([(0x016, .aperturePageWrite
    v), (0x020, .intStatusWrite v), (0x022, .intEnableWrite v), (0x032, .signalSet v), (0x034, .signalClear v),
    (0x042, .tableSelectWrite v), (0x044, .slotPeriodWrite v), (0x066, .laneSelectWrite v), (0x074,
    .recordPointerWrite v), (0x076, .laneConfigWrite v), (0x0AC, .queueThresholdWrite v), (0x0AE, .queuePop v)] : List
    (WindowOffset × Instr))) ∧
    (∃ (s : State) (v : Half) (row : BitVec 3 × Instr), s.resetPin = false ∧ row ∈ ([(1, .enable (v.extractLsb' 0 4)),
    (2, .disable (v.extractLsb' 0 4)), (3, .start (v.extractLsb' 0 4)), (4, .halt (v.extractLsb' 0 4)), (5, .resume
    (v.extractLsb' 0 4)), (6, .abort (v.extractLsb' 0 4)), (0, .laneCommandUnknown (v.extractLsb' 0 4) 0), (7,
    .laneCommandUnknown (v.extractLsb' 0 4) 7)] : List (BitVec 3 × Instr)) ∧ v.extractLsb' 8 3 = row.1) ∧
    (∃ (s : State) (v : Half) (row : BitVec 4 × Instr), s.resetPin = false ∧ row ∈ ([(1, .wheelStart), (2,
    .wheelStop), (3, .wheelRewind), (4, .softReset), (5, .erase)] : List (BitVec 4 × Instr)) ∧ v.extractLsb' 0 4 =
    row.1) ∧
    (∃ (s : State) (v : Half), s.resetPin = false ∧ (v.extractLsb' 0 4 = 0 ∨ 5 < (v.extractLsb' 0 4).toNat)) ∧
    (∃ (s : State) (v : Half), s.resetPin = false ∧ (v.extractLsb' 0 4 = 0 ∨ 5 < (v.extractLsb' 0 4).toNat)) ∧
    (∃ (s : State) (v : Half), s.resetPin = false ∧ (v.extractLsb' 0 4 = 0 ∨ 5 < (v.extractLsb' 0 4).toNat)) :=
  ⟨⟨up, 0x0AA, by decide +kernel⟩,
   ⟨up, 1, (0x0AE, .queuePop 1), by decide +kernel⟩,
   ⟨up, 0x0605, (6, .abort 5), by decide +kernel⟩,
   ⟨up, 4, (4, .softReset), by decide +kernel⟩,
   ⟨up, 0, by decide +kernel⟩,
   ⟨up, 6, by decide +kernel⟩,
   ⟨up, 15, by decide +kernel⟩⟩

/-- The hypotheses of UnusedOffsetsAreNeitherPerformedNorRefused are met, clause by clause. -/
theorem witness_UnusedOffsetsAreNeitherPerformedNorRefused :
    ∃ (s : State) (offset : WindowOffset), s.resetPin = false ∧ offset.toNat % 2 = 0 ∧ ((0x006 ≤ offset.toNat ∧
    offset.toNat ≤ 0x00E) ∨ (0x018 ≤ offset.toNat ∧ offset.toNat ≤ 0x01E) ∨ offset.toNat = 0x024 ∨ offset.toNat =
    0x026 ∨ offset.toNat = 0x02E ∨ (0x036 ≤ offset.toNat ∧ offset.toNat ≤ 0x03E) ∨ (0x04E ≤ offset.toNat ∧
    offset.toNat ≤ 0x05E) ∨ offset.toNat = 0x06C ∨ offset.toNat = 0x06E ∨ (0x0B0 ≤ offset.toNat ∧ offset.toNat ≤
    0x0BE) ∨ (0x180 ≤ offset.toNat ∧ offset.toNat ≤ 0x1FE)) :=
  ⟨up, 0x1FE, by decide +kernel⟩

/-- The hypotheses of SlotTicksServeTheirOwnLaneOrOverrun are met, clause by clause. -/
theorem witness_SlotTicksServeTheirOwnLaneOrOverrun :
    (∃ (s : State), s.resetPin = false ∧ s.wheel.running = true ∧ s.beat.isSome = true) ∧
    (∃ (s : State) (l : LaneId), s.resetPin = false ∧ s.wheel.running = true ∧ s.beat = none ∧ s.wheel.nextEntry.named
    = some l ∧ s.ready l = true) :=
  ⟨⟨inBeat running (beat5 .dispatch move) (worker .dispatch), by decide +kernel⟩,
   ⟨with5 (serving5 running) (worker .load), 5, by decide +kernel⟩⟩

/-- The hypotheses of SpareSlotsGoToCreditThenRotation are met, clause by clause. -/
theorem witness_SpareSlotsGoToCreditThenRotation :
    (∃ (s : State) (l : LaneId), s.resetPin = false ∧ s.wheel.running = true ∧ s.beat = none ∧ s.ownSlotLane = none ∧
    s.ready l = true ∧ 0 < (s.lane l).credit ∧ (∀ k, s.ready k = true → (s.lane k).credit ≤ (s.lane l).credit ∧ (k < l
    → (s.lane k).credit < (s.lane l).credit))) ∧
    (∃ (s : State) (l : LaneId), s.resetPin = false ∧ s.wheel.running = true ∧ s.beat = none ∧ s.ownSlotLane = none ∧
    (∀ k, s.ready k = true → (s.lane k).credit = 0) ∧ s.spareReady l = true ∧ (∀ k, s.spareReady k = true →
    rotationDistance s.wheel.rotation l ≤ rotationDistance s.wheel.rotation k)) ∧
    (∃ (s : State), s.resetPin = false ∧ s.wheel.running = true ∧ s.beat = none ∧ s.ownSlotLane = none ∧ (∀ k, s.ready
    k = true → (s.lane k).credit = 0) ∧ (∀ l, s.spareReady l = false)) :=
  ⟨⟨with5 running { worker .load with credit := 3 }, 5, by decide +kernel⟩,
   ⟨with5 running { worker .load with config := ⟨3, false, true⟩ }, 5, by decide +kernel⟩,
   ⟨running, by decide +kernel⟩⟩

/-- The hypotheses of WaitTimeoutsCountAndEnd are met, clause by clause. -/
theorem witness_WaitTimeoutsCountAndEnd :
    (∃ (s : State), s.resetPin = false ∧ s.wheel.running = false) ∧
    (∃ (s : State) (l : LaneId), s.resetPin = false ∧ s.timesOut l = true) ∧
    (∃ (s : State) (l : LaneId), s.resetPin = false ∧ s.timesOut l = false) ∧
    (∃ (s : State) (l : LaneId), s.resetPin = false ∧ s.timesOut l = false) ∧
    (∃ (s : State) (l : LaneId) (w : Wait), s.lookupsSound ∧ s.resetPin = false ∧ s.wheel.running = true ∧ (s.lane
    l).state = .waiting ∧ (s.lane l).wait = some w ∧ w.timeoutLeft = 0) ∧
    (∃ (s : State) (l : LaneId) (w : Wait), s.lookupsSound ∧ s.resetPin = false ∧ s.wheel.running = true ∧ (s.lane
    l).state = .waiting ∧ (s.lane l).wait = some w ∧ 1 < w.timeoutLeft) ∧
    (∃ (s : State) (l : LaneId) (w : Wait), s.lookupsSound ∧ s.resetPin = false ∧ s.wheel.running = true ∧ (s.lane
    l).state = .waiting ∧ (s.lane l).wait = some w ∧ 1 < w.timeoutLeft) ∧
    (∃ (s : State) (l : LaneId) (w : Wait), s.lookupsSound ∧ s.resetPin = false ∧ s.wheel.running = true ∧ (s.lane
    l).state = .waiting ∧ (s.lane l).wait = some w ∧ w.timeoutLeft = 1 ∧ (w.postOnTimeout = false ∨ l ∈
    s.timeoutsPosted)) ∧
    (∃ (s : State) (l : LaneId) (w : Wait), s.lookupsSound ∧ s.resetPin = false ∧ s.wheel.running = true ∧ (s.lane
    l).state = .waiting ∧ (s.lane l).wait = some w ∧ w.timeoutLeft = 1 ∧ (w.postOnTimeout = false ∨ l ∈
    s.timeoutsPosted)) ∧
    (∃ (s : State) (l : LaneId) (w : Wait), s.lookupsSound ∧ s.resetPin = false ∧ s.wheel.running = true ∧ (s.lane
    l).state = .waiting ∧ (s.lane l).wait = some w ∧ w.timeoutLeft = 1 ∧ w.postOnTimeout = true ∧ l ∉
    s.timeoutsPosted) :=
  ⟨⟨up, by decide +kernel⟩,
   ⟨with5 running (waiter ⟨4, true, 1, true, 9⟩), 5, by decide +kernel⟩,
   ⟨with5 running (waiter ⟨4, true, 2, true, 9⟩), 5, by decide +kernel⟩,
   ⟨up, 5, by decide +kernel⟩,
   ⟨with5 running (waiter ⟨4, true, 0, false, 9⟩), 5, ⟨4, true, 0, false, 9⟩, lookupsSound_of_check (by decide +kernel),
    by decide +kernel⟩,
   ⟨with5 running (waiter ⟨4, true, 2, false, 9⟩), 5, ⟨4, true, 2, false, 9⟩, lookupsSound_of_check (by decide +kernel),
    by decide +kernel⟩,
   ⟨with5 running (waiter ⟨4, true, 65535, false, 9⟩), 5, ⟨4, true, 65535, false, 9⟩, lookupsSound_of_check
    (by decide +kernel), by decide +kernel⟩,
   ⟨with5 running (waiter ⟨4, true, 1, false, 9⟩), 5, ⟨4, true, 1, false, 9⟩, lookupsSound_of_check (by decide +kernel),
    by decide +kernel⟩,
   ⟨with5 { running with queue := { full.queue with entries := List.replicate 31 ⟨0, 0, .post, 0, 0, 0⟩ } } (waiter ⟨4,
    true, 1, true, 9⟩), 5, ⟨4, true, 1, true, 9⟩, lookupsSound_of_check (by decide +kernel), by decide +kernel⟩,
   ⟨with5 { full with wheel := running.wheel } (waiter ⟨4, true, 1, true, 9⟩), 5, ⟨4, true, 1, true, 9⟩,
    lookupsSound_of_check (by decide +kernel), by decide +kernel⟩⟩

/-- The hypotheses of RecordAndCellReadsGoThroughTheBeatsTranslation are met, clause by clause. -/
theorem witness_RecordAndCellReadsGoThroughTheBeatsTranslation :
    (∃ (s : State) (b : Beat) (q : BitVec 7) (page : BitVec 6) (rd : Bool) (wr : Bool), s.resetPin = false ∧ s.beat =
    some b ∧ b.work = .load ⟨q, .memory page rd wr⟩ []) ∧
    (∃ (s : State) (b : Beat) (q : BitVec 7) (page : BitVec 6) (rd : Bool) (wr : Bool) (words : List Word), s.resetPin
    = false ∧ s.beat = some b ∧ b.work = .load ⟨q, .memory page rd wr⟩ words ∧ words.length < 4) ∧
    (∃ (s : State) (b : Beat) (q : BitVec 7) (page : BitVec 6) (rd : Bool) (wr : Bool), s.resetPin = false ∧ s.beat =
    some b ∧ b.work = .resolve ⟨q, .memory page rd wr⟩ none) :=
  ⟨⟨inBeat up (beat5 (.load mem5 []) move) (worker .load), beat5 (.load mem5 []) move, 5, 7, true, true,
    by decide +kernel⟩,
   ⟨inBeat up (beat5 (.load mem5 [1, 2, 3]) move) (worker .load), beat5 (.load mem5 [1, 2, 3]) move, 5, 7, true, true,
    [1, 2, 3], by decide +kernel⟩,
   ⟨inBeat up (beat5 (.resolve mem5 none) move) (worker .resolve), beat5 (.resolve mem5 none) move, 5, 7, true, true,
    by decide +kernel⟩⟩

/-- The hypotheses of TransferTestsEndTheWordStepsInOrder are met, clause by clause. -/
theorem witness_TransferTestsEndTheWordStepsInOrder :
    (∃ (s : State) (b : Beat) (r : RecordCopy) (src : BeatCursor) (dst : BeatCursor) (moved : Nat) (stop : Stop),
    s.resetPin = false ∧ s.beat = some b ∧ b.progress.current = some r ∧ b.work = .transfer src dst moved none none ∧
    s.stopBefore b r src dst moved = some stop) ∧
    (∃ (s : State) (b : Beat) (r : RecordCopy) (src : BeatCursor) (dst : BeatCursor) (moved : Nat) (stop : Stop),
    s.resetPin = false ∧ s.beat = some b ∧ b.progress.current = some r ∧ b.work = .transfer src dst moved none none ∧
    s.stopBefore b r src dst moved = some stop) ∧
    (∃ (s : State) (b : Beat) (r : RecordCopy) (src : BeatCursor) (dst : BeatCursor) (moved : Nat) (stop : Stop),
    s.resetPin = false ∧ s.beat = some b ∧ b.progress.current = some r ∧ b.work = .transfer src dst moved none none ∧
    s.stopBefore b r src dst moved = some stop) ∧
    (∃ (s : State) (b : Beat) (r : RecordCopy) (src : BeatCursor) (dst : BeatCursor) (moved : Nat) (stop : Stop),
    s.resetPin = false ∧ s.beat = some b ∧ b.progress.current = some r ∧ b.work = .transfer src dst moved none none ∧
    s.stopBefore b r src dst moved = some stop) ∧
    (∃ (s : State) (b : Beat) (r : RecordCopy) (src : BeatCursor) (dst : BeatCursor) (moved : Nat) (stop : Stop),
    s.resetPin = false ∧ s.beat = some b ∧ b.progress.current = some r ∧ b.work = .transfer src dst moved none none ∧
    s.stopBefore b r src dst moved = some stop) ∧
    (∃ (s : State) (b : Beat) (r : RecordCopy) (src : BeatCursor) (dst : BeatCursor) (moved : Nat) (stop : Stop),
    s.resetPin = false ∧ s.beat = some b ∧ b.progress.current = some r ∧ b.work = .transfer src dst moved none none ∧
    s.stopBefore b r src dst moved = some stop) ∧
    (∃ (s : State) (b : Beat) (r : RecordCopy) (src : BeatCursor) (dst : BeatCursor) (moved : Nat) (stop : Stop),
    s.resetPin = false ∧ s.beat = some b ∧ b.progress.current = some r ∧ b.work = .transfer src dst moved none none ∧
    s.stopBefore b r src dst moved = some stop) :=
  ⟨⟨inBeat up ({ moving (mem5) (mem6) 1 with progress := { (moving (mem5) (mem6) 1).progress with remaining := 0 } })
    (worker .transfer), { moving (mem5) (mem6) 1 with progress := { (moving (mem5) (mem6) 1).progress with remaining
    := 0 } }, move, mem5, mem6, 1, .finish, by decide +kernel⟩,
   ⟨inBeat up (moving (mem5) (mem6) 4) (worker .transfer), moving (mem5) (mem6) 4, move, mem5, mem6, 4, .burst,
    by decide +kernel⟩,
   ⟨inBeat up ({ moving (mem5) (mem6) 1 with progress := { (moving (mem5) (mem6) 1).progress with sourcePosition :=
    0x0600 } }) (worker .transfer), { moving (mem5) (mem6) 1 with progress := { (moving (mem5) (mem6) 1).progress with
    sourcePosition := 0x0600 } }, move, mem5, mem6, 1, .crossing, by decide +kernel⟩,
   ⟨inBeat up (moving (⟨5, .port 1 .rx⟩) (mem6) 1) (worker .transfer), moving (⟨5, .port 1 .rx⟩) (mem6) 1, move, ⟨5,
    .port 1 .rx⟩, mem6, 1, (.portOff .src), by decide +kernel⟩,
   ⟨inBeat up (moving (mem5) (⟨5, .port 1 .tx⟩) 1) (worker .transfer), moving (mem5) (⟨5, .port 1 .tx⟩) 1, move, mem5,
    ⟨5, .port 1 .tx⟩, 1, (.portOff .dst), by decide +kernel⟩,
   ⟨inBeat (with1 up enabled) (moving (⟨5, .port 1 .rx⟩) (mem6) 1) (worker .transfer), moving (⟨5, .port 1 .rx⟩) (mem6)
    1, move, ⟨5, .port 1 .rx⟩, mem6, 1, (.portEmpty 1), by decide +kernel⟩,
   ⟨inBeat (with1 up { enabled with txFifo := List.replicate 32 0 }) (moving (mem5) (⟨5, .port 1 .tx⟩) 1) (worker
    .transfer), moving (mem5) (⟨5, .port 1 .tx⟩) 1, move, mem5, ⟨5, .port 1 .tx⟩, 1, (.portFull 1), by decide +kernel⟩⟩

/-- The hypotheses of WordStepMovesOneWord are met, clause by clause. -/
theorem witness_WordStepMovesOneWord :
    (∃ (s : State) (b : Beat) (r : RecordCopy) (src : BeatCursor) (dst : BeatCursor) (moved : Nat) (q : PortId) (d :
    Direction) (w : Word), s.resetPin = false ∧ s.memoryCanonical ∧ s.beat = some b ∧ b.progress.current = some r ∧
    dst.target = .port q d ∧ b.work = .transfer src dst moved (some ⟨w, true⟩) none ∧ b.progress.remaining ≠ 0) ∧
    (∃ (s : State) (b : Beat) (r : RecordCopy) (src : BeatCursor) (dst : BeatCursor) (moved : Nat) (q : PortId) (d :
    Direction), s.wordMayMove b r src dst moved ∧ s.resetPin = false ∧ s.memoryCanonical ∧ s.beat = some b ∧
    b.progress.current = some r ∧ b.work = .transfer src dst moved none none ∧ dst.target = .port q d) ∧
    (∃ (s : State) (b : Beat) (r : RecordCopy) (src : BeatCursor) (dst : BeatCursor) (moved : Nat) (q : PortId) (d :
    Direction), s.wordMayMove b r src dst moved ∧ s.resetPin = false ∧ s.memoryCanonical ∧ s.beat = some b ∧
    b.progress.current = some r ∧ b.work = .transfer src dst moved none none ∧ dst.target = .port q d) ∧
    (∃ (s : State) (b : Beat) (r : RecordCopy) (src : BeatCursor) (dst : BeatCursor) (moved : Nat), s.wordMayMove b r
    src dst moved ∧ s.resetPin = false ∧ s.memoryCanonical ∧ s.beat = some b ∧ b.progress.current = some r ∧ b.work =
    .transfer src dst moved none none) ∧
    (∃ (s : State) (b : Beat) (r : RecordCopy) (src : BeatCursor) (dst : BeatCursor) (moved : Nat), s.wordMayMove b r
    src dst moved ∧ s.resetPin = false ∧ s.memoryCanonical ∧ s.beat = some b ∧ b.progress.current = some r ∧ b.work =
    .transfer src dst moved none none) :=
  ⟨⟨inBeat up ({ beat5 (.transfer mem5 ⟨5, .port 1 .tx⟩ 3 (some ⟨7, true⟩) none) move with progress := (moving mem5 ⟨5,
    .port 1 .tx⟩ 3).progress }) (worker .transfer), { beat5 (.transfer mem5 ⟨5, .port 1 .tx⟩ 3 (some ⟨7, true⟩) none)
    move with progress := (moving mem5 ⟨5, .port 1 .tx⟩ 3).progress }, move, mem5, ⟨5, .port 1 .tx⟩, 3, 1, .tx, 7,
    by decide +kernel⟩,
   ⟨inBeat (with1 up enabled) ({ moving (mem5) (⟨5, .port 1 .tx⟩) 3 with progress := { (moving (mem5) (⟨5, .port 1 .tx⟩)
    3).progress with sourcePosition := 0x05FF } }) (worker .transfer), { moving (mem5) (⟨5, .port 1 .tx⟩) 3 with
    progress := { (moving (mem5) (⟨5, .port 1 .tx⟩) 3).progress with sourcePosition := 0x05FF } }, move, mem5, ⟨5,
    .port 1 .tx⟩, 3, 1, .tx, ⟨by decide +kernel, by decide +kernel, by decide +kernel, by decide +kernel,
    by rintro _ _ ⟨⟩, by rintro _ _ ⟨⟩; decide +kernel⟩, by decide +kernel⟩,
   ⟨inBeat (with1 up { enabled with rxFifo := [5] }) (moving (⟨5, .port 1 .rx⟩) (⟨5, .port 1 .tx⟩) 0) (worker .transfer),
    moving (⟨5, .port 1 .rx⟩) (⟨5, .port 1 .tx⟩) 0, move, ⟨5, .port 1 .rx⟩, ⟨5, .port 1 .tx⟩, 0, 1, .tx,
    ⟨by decide +kernel, by decide +kernel, by decide +kernel, by decide +kernel, by rintro _ _ ⟨⟩; decide +kernel,
    by rintro _ _ ⟨⟩; decide +kernel⟩, by decide +kernel⟩,
   ⟨inBeat up ({ moving (⟨0x7F, .memory 7 true true⟩) (mem6) 0 with progress := { (moving (⟨0x7F, .memory 7 true true⟩)
    (mem6) 0).progress with sourcePosition := 0x7FFF } }) (worker .transfer), { moving (⟨0x7F, .memory 7 true true⟩)
    (mem6) 0 with progress := { (moving (⟨0x7F, .memory 7 true true⟩) (mem6) 0).progress with sourcePosition := 0x7FFF
    } }, move, ⟨0x7F, .memory 7 true true⟩, mem6, 0, ⟨by decide +kernel, by decide +kernel, by decide +kernel,
    by decide +kernel, by rintro _ _ ⟨⟩, by rintro _ _ ⟨⟩⟩, by decide +kernel⟩,
   ⟨inBeat (with1 up { enabled with rxFifo := [5] }) ({ moving (⟨5, .port 1 .rx⟩) (⟨0x7F, .memory 7 true true⟩) 0 with
    progress := { (moving (⟨5, .port 1 .rx⟩) (⟨0x7F, .memory 7 true true⟩) 0).progress with destinationPosition :=
    0x7FFF } }) (worker .transfer), { moving (⟨5, .port 1 .rx⟩) (⟨0x7F, .memory 7 true true⟩) 0 with progress := {
    (moving (⟨5, .port 1 .rx⟩) (⟨0x7F, .memory 7 true true⟩) 0).progress with destinationPosition := 0x7FFF } }, move,
    ⟨5, .port 1 .rx⟩, ⟨0x7F, .memory 7 true true⟩, 0, ⟨by decide +kernel, by decide +kernel, by decide +kernel,
    by decide +kernel, by rintro _ _ ⟨⟩; decide +kernel, by rintro _ _ ⟨⟩⟩, by decide +kernel⟩⟩

/-- The hypotheses of EveryBeatEndCountsTheBeatAndChangesNoWord are met, clause by clause. -/
theorem witness_EveryBeatEndCountsTheBeatAndChangesNoWord :
    (∃ (s : State) (b : Beat), s.resetPin = false ∧ s.beat = some b ∧ b.work.over = false) ∧
    (∃ (s : State) (b : Beat), s.resetPin = false ∧ s.beat = some b ∧ b.work.over = true) :=
  ⟨⟨inBeat up (beat5 (.load mem5 [1, 2, 3]) move) (worker .load), beat5 (.load mem5 [1, 2, 3]) move, by decide +kernel⟩,
   ⟨inBeat up (beat5 .dispatch move) (worker .dispatch), beat5 .dispatch move, by decide +kernel⟩⟩

/-- The hypotheses of InvalidRecordsAndBreaksStopTheLane are met, clause by clause. -/
theorem witness_InvalidRecordsAndBreaksStopTheLane :
    (∃ (s : State) (b : Beat) (r : RecordCopy) (cause : FaultCause) (offending : LAddr), s.lookupsSound ∧ BeatEnds s b
    ∧ b.work.isLoad = true ∧ b.progress.current = some r ∧ r.validate b.progress.pointer = some (cause, offending)) ∧
    (∃ (s : State) (b : Beat) (r : RecordCopy), s.lookupsSound ∧ BeatEnds s b ∧ b.work.isLoad = true ∧
    b.progress.current = some r ∧ r.validate b.progress.pointer = none ∧ r.breakFlag = true) :=
  ⟨⟨inBeat up (beat5 (.load mem5 [0, 0, 0, 0]) ⟨0, 0, 0, 0⟩) (worker .load), beat5 (.load mem5 [0, 0, 0, 0]) ⟨0, 0, 0,
    0⟩, ⟨0, 0, 0, 0⟩, .badKind, 0x0400, lookupsSound_of_check (by decide +kernel), by decide +kernel⟩,
   ⟨inBeat up (beat5 (.load mem5 [0x70000000, 0, 0, 0]) ⟨0x70000000, 0, 0, 0⟩) (worker .load), beat5 (.load mem5
    [0x70000000, 0, 0, 0]) ⟨0x70000000, 0, 0, 0⟩, ⟨0x70000000, 0, 0, 0⟩, lookupsSound_of_check (by decide +kernel),
    by decide +kernel⟩⟩

/-- The hypotheses of MoveDispatchPreparesTheTransfer are met, clause by clause. -/
theorem witness_MoveDispatchPreparesTheTransfer :
    (∃ (s : State) (b : Beat) (r : RecordCopy), BeatEnds s b ∧ b.dispatches r ∧ r.kind = some .move ∧ r.word1.getLsbD
    31 = false ∧ r.word2.getLsbD 31 = false) ∧
    (∃ (s : State) (b : Beat) (r : RecordCopy), BeatEnds s b ∧ b.dispatches r ∧ r.kind = some .move ∧ r.word1.getLsbD
    31 = true) ∧
    (∃ (s : State) (b : Beat) (r : RecordCopy), BeatEnds s b ∧ b.dispatches r ∧ r.kind = some .move ∧ r.word1.getLsbD
    31 = false ∧ r.word2.getLsbD 31 = true) :=
  ⟨⟨inBeat up (beat5 .dispatch (move)) (worker .dispatch), beat5 .dispatch (move), move, by decide +kernel⟩,
   ⟨inBeat up (beat5 .dispatch (moveIndirect)) (worker .dispatch), beat5 .dispatch (moveIndirect), moveIndirect,
    by decide +kernel⟩,
   ⟨inBeat up (beat5 .dispatch (moveIndirectDst)) (worker .dispatch), beat5 .dispatch (moveIndirectDst), moveIndirectDst,
    by decide +kernel⟩⟩

/-- The hypotheses of LinksFollowTheRepeatRecord are met, clause by clause. -/
theorem witness_LinksFollowTheRepeatRecord :
    (∃ (s : State) (b : Beat) (r : RecordCopy), s.lookupsSound ∧ BeatEnds s b ∧ b.dispatches r ∧ r.kind = some .link ∧
    r.word1.getLsbD 31 = true) ∧
    (∃ (s : State) (b : Beat) (r : RecordCopy), s.lookupsSound ∧ BeatEnds s b ∧ b.dispatches r ∧ r.kind = some .link ∧
    r.word1.getLsbD 31 = false ∧ (r.word0.extractLsb' 0 12).toNat = 0) ∧
    (∃ (s : State) (b : Beat) (r : RecordCopy), s.lookupsSound ∧ BeatEnds s b ∧ b.dispatches r ∧ r.kind = some .link ∧
    r.word1.getLsbD 31 = false ∧ (r.word0.extractLsb' 0 12).toNat ≠ 0 ∧ (s.lane b.lane).repeatRecord = none) ∧
    (∃ (s : State) (b : Beat) (r : RecordCopy) (a : LAddr) (m : Nat), s.lookupsSound ∧ BeatEnds s b ∧ b.dispatches r ∧
    r.kind = some .link ∧ r.word1.getLsbD 31 = false ∧ (r.word0.extractLsb' 0 12).toNat ≠ 0 ∧ (s.lane
    b.lane).repeatRecord = some ⟨a, m⟩ ∧ a = b.progress.pointer ∧ 1 < m) ∧
    (∃ (s : State) (b : Beat) (r : RecordCopy) (a : LAddr) (m : Nat), s.lookupsSound ∧ BeatEnds s b ∧ b.dispatches r ∧
    r.kind = some .link ∧ r.word1.getLsbD 31 = false ∧ (r.word0.extractLsb' 0 12).toNat ≠ 0 ∧ (s.lane
    b.lane).repeatRecord = some ⟨a, m⟩ ∧ a = b.progress.pointer ∧ m ≤ 1) ∧
    (∃ (s : State) (b : Beat) (r : RecordCopy) (a : LAddr) (m : Nat), s.lookupsSound ∧ BeatEnds s b ∧ b.dispatches r ∧
    r.kind = some .link ∧ r.word1.getLsbD 31 = false ∧ (r.word0.extractLsb' 0 12).toNat ≠ 0 ∧ (s.lane
    b.lane).repeatRecord = some ⟨a, m⟩ ∧ a ≠ b.progress.pointer) :=
  ⟨⟨inBeat up (beat5 .dispatch (⟨0x40000000, 0x80000500, 0, 0⟩)) (worker .dispatch), beat5 .dispatch (⟨0x40000000,
    0x80000500, 0, 0⟩), ⟨0x40000000, 0x80000500, 0, 0⟩, lookupsSound_of_check (by decide +kernel), by decide +kernel⟩,
   ⟨inBeat up (beat5 .dispatch (link 0)) (worker .dispatch), beat5 .dispatch (link 0), link 0, lookupsSound_of_check
    (by decide +kernel), by decide +kernel⟩,
   ⟨inBeat up (beat5 .dispatch (link 4095)) (worker .dispatch), beat5 .dispatch (link 4095), link 4095,
    lookupsSound_of_check (by decide +kernel), by decide +kernel⟩,
   ⟨inBeat up (beat5 .dispatch (link 3)) ({ worker .dispatch with repeatRecord := some ⟨0x0400, 2⟩ }), beat5 .dispatch
    (link 3), link 3, 0x0400, 2, lookupsSound_of_check (by decide +kernel), by decide +kernel⟩,
   ⟨inBeat up (beat5 .dispatch (link 3)) ({ worker .dispatch with repeatRecord := some ⟨0x0400, 1⟩ }), beat5 .dispatch
    (link 3), link 3, 0x0400, 1, lookupsSound_of_check (by decide +kernel), by decide +kernel⟩,
   ⟨inBeat up (beat5 .dispatch (link 3)) ({ worker .dispatch with repeatRecord := some ⟨0x0404, 1⟩ }), beat5 .dispatch
    (link 3), link 3, 0x0404, 1, lookupsSound_of_check (by decide +kernel), by decide +kernel⟩⟩

/-- The hypotheses of PostPushesOrTakesAPendingPost are met, clause by clause. -/
theorem witness_PostPushesOrTakesAPendingPost :
    (∃ (s : State) (b : Beat) (r : RecordCopy), s.lookupsSound ∧ BeatEnds s b ∧ b.dispatches r ∧ r.kind = some .post ∧
    s.queue.entries.length < 32) ∧
    (∃ (s : State) (b : Beat) (r : RecordCopy), s.lookupsSound ∧ BeatEnds s b ∧ b.dispatches r ∧ r.kind = some .post ∧
    32 ≤ s.queue.entries.length) :=
  ⟨⟨inBeat up (beat5 .dispatch (post)) (worker .dispatch), beat5 .dispatch (post), post, lookupsSound_of_check
    (by decide +kernel), by decide +kernel⟩,
   ⟨inBeat full (beat5 .dispatch (post)) (worker .dispatch), beat5 .dispatch (post), post, lookupsSound_of_check
    (by decide +kernel), by decide +kernel⟩⟩

/-- The hypotheses of WaitRaiseAndStopDispatch are met, clause by clause. -/
theorem witness_WaitRaiseAndStopDispatch :
    (∃ (s : State) (b : Beat) (r : RecordCopy), s.lookupsSound ∧ BeatEnds s b ∧ b.dispatches r ∧ (s.lane b.lane).state
    = .active ∧ r.kind = some .wait ∧ s.signals &&& r.word1.extractLsb' 0 16 = 0) ∧
    (∃ (s : State) (b : Beat) (r : RecordCopy) (n : SignalId), s.lookupsSound ∧ BeatEnds s b ∧ b.dispatches r ∧
    (s.lane b.lane).state = .active ∧ r.kind = some .wait ∧ (s.signals &&& r.word1.extractLsb' 0 16).getLsbD n.val =
    true ∧ (∀ m : SignalId, m < n → (s.signals &&& r.word1.extractLsb' 0 16).getLsbD m.val = false)) ∧
    (∃ (s : State) (b : Beat) (r : RecordCopy), s.lookupsSound ∧ BeatEnds s b ∧ b.dispatches r ∧ (s.lane b.lane).state
    = .active ∧ r.kind = some .raise) ∧
    (∃ (s : State) (b : Beat) (r : RecordCopy), s.lookupsSound ∧ BeatEnds s b ∧ b.dispatches r ∧ (s.lane b.lane).state
    = .active ∧ r.kind = some .stop ∧ (r.word0.getLsbD 25 = false ∨ s.queue.entries.length < 32)) ∧
    (∃ (s : State) (b : Beat) (r : RecordCopy), s.lookupsSound ∧ BeatEnds s b ∧ b.dispatches r ∧ (s.lane b.lane).state
    = .active ∧ r.kind = some .stop ∧ r.word0.getLsbD 25 = true ∧ 32 ≤ s.queue.entries.length) :=
  ⟨⟨inBeat up (beat5 .dispatch (wait2)) (worker .dispatch), beat5 .dispatch (wait2), wait2, lookupsSound_of_check
    (by decide +kernel), by decide +kernel⟩,
   ⟨inBeat { up with signals := 4 } (beat5 .dispatch (wait2)) (worker .dispatch), beat5 .dispatch (wait2), wait2, 2,
    lookupsSound_of_check (by decide +kernel), by decide +kernel⟩,
   ⟨inBeat up (beat5 .dispatch (⟨0xA0000000, 0x8000, 0, 0⟩)) (worker .dispatch), beat5 .dispatch (⟨0xA0000000, 0x8000, 0,
    0⟩), ⟨0xA0000000, 0x8000, 0, 0⟩, lookupsSound_of_check (by decide +kernel), by decide +kernel⟩,
   ⟨inBeat up (beat5 .dispatch (stopPost)) (worker .dispatch), beat5 .dispatch (stopPost), stopPost,
    lookupsSound_of_check (by decide +kernel), by decide +kernel⟩,
   ⟨inBeat full (beat5 .dispatch (stopPost)) (worker .dispatch), beat5 .dispatch (stopPost), stopPost,
    lookupsSound_of_check (by decide +kernel), by decide +kernel⟩⟩

/-- The hypotheses of TransferStopsLeaveTheMoveUnfinished are met, clause by clause. -/
theorem witness_TransferStopsLeaveTheMoveUnfinished :
    (∃ (s : State) (b : Beat) (r : RecordCopy) (src : BeatCursor) (dst : BeatCursor) (moved : Nat) (stop : Stop),
    s.lookupsSound ∧ BeatEnds s b ∧ b.progress.current = some r ∧ b.work = .transfer src dst moved none (some stop) ∧
    stop = .burst) ∧
    (∃ (s : State) (b : Beat) (r : RecordCopy) (src : BeatCursor) (dst : BeatCursor) (moved : Nat) (stop : Stop),
    s.lookupsSound ∧ BeatEnds s b ∧ b.progress.current = some r ∧ b.work = .transfer src dst moved none (some stop) ∧
    stop = .crossing) ∧
    (∃ (s : State) (b : Beat) (r : RecordCopy) (src : BeatCursor) (dst : BeatCursor) (moved : Nat) (stop : Stop) (role
    : Role), s.lookupsSound ∧ BeatEnds s b ∧ b.progress.current = some r ∧ b.work = .transfer src dst moved none (some
    stop) ∧ stop = .portOff role) ∧
    (∃ (s : State) (b : Beat) (r : RecordCopy) (src : BeatCursor) (dst : BeatCursor) (moved : Nat) (stop : Stop) (role
    : Role), s.lookupsSound ∧ BeatEnds s b ∧ b.progress.current = some r ∧ b.work = .transfer src dst moved none (some
    stop) ∧ stop = .range role) ∧
    (∃ (s : State) (b : Beat) (r : RecordCopy) (src : BeatCursor) (dst : BeatCursor) (moved : Nat) (stop : Stop) (p :
    PortId), s.lookupsSound ∧ BeatEnds s b ∧ b.progress.current = some r ∧ b.work = .transfer src dst moved none (some
    stop) ∧ stop = .portEmpty p ∧ (s.port p).rxEnable = false) ∧
    (∃ (s : State) (b : Beat) (r : RecordCopy) (src : BeatCursor) (dst : BeatCursor) (moved : Nat) (stop : Stop) (p :
    PortId), s.lookupsSound ∧ BeatEnds s b ∧ b.progress.current = some r ∧ b.work = .transfer src dst moved none (some
    stop) ∧ stop = .portEmpty p ∧ (s.port p).rxEnable = true) ∧
    (∃ (s : State) (b : Beat) (r : RecordCopy) (src : BeatCursor) (dst : BeatCursor) (moved : Nat) (stop : Stop) (q :
    PortId), s.lookupsSound ∧ BeatEnds s b ∧ b.progress.current = some r ∧ b.work = .transfer src dst moved none (some
    stop) ∧ stop = .portFull q ∧ (s.port q).txEnable = false) ∧
    (∃ (s : State) (b : Beat) (r : RecordCopy) (src : BeatCursor) (dst : BeatCursor) (moved : Nat) (stop : Stop) (q :
    PortId), s.lookupsSound ∧ BeatEnds s b ∧ b.progress.current = some r ∧ b.work = .transfer src dst moved none (some
    stop) ∧ stop = .portFull q ∧ (s.port q).txEnable = true) :=
  ⟨⟨inBeat up (beat5 (.transfer mem5 mem6 1 none (some .burst)) move) (worker .transfer), beat5 (.transfer mem5 mem6 1
    none (some .burst)) move, move, mem5, mem6, 1, .burst, lookupsSound_of_check (by decide +kernel),
    by decide +kernel⟩,
   ⟨inBeat up (beat5 (.transfer mem5 mem6 1 none (some .crossing)) move) (worker .transfer), beat5 (.transfer mem5 mem6 1
    none (some .crossing)) move, move, mem5, mem6, 1, .crossing, lookupsSound_of_check (by decide +kernel),
    by decide +kernel⟩,
   ⟨inBeat up (beat5 (.transfer mem5 mem6 1 none (some (.portOff .dst))) move) (worker .transfer), beat5 (.transfer mem5
    mem6 1 none (some (.portOff .dst))) move, move, mem5, mem6, 1, (.portOff .dst), .dst, lookupsSound_of_check
    (by decide +kernel), by decide +kernel⟩,
   ⟨inBeat up (beat5 (.transfer mem5 mem6 1 none (some (.range .src))) move) (worker .transfer), beat5 (.transfer mem5
    mem6 1 none (some (.range .src))) move, move, mem5, mem6, 1, (.range .src), .src, lookupsSound_of_check
    (by decide +kernel), by decide +kernel⟩,
   ⟨inBeat up (beat5 (.transfer mem5 mem6 1 none (some (.portEmpty 3))) move) (worker .transfer), beat5 (.transfer mem5
    mem6 1 none (some (.portEmpty 3))) move, move, mem5, mem6, 1, (.portEmpty 3), 3, lookupsSound_of_check
    (by decide +kernel), by decide +kernel⟩,
   ⟨inBeat (with1 up enabled) (beat5 (.transfer mem5 mem6 1 none (some (.portEmpty 1))) move) (worker .transfer), beat5
    (.transfer mem5 mem6 1 none (some (.portEmpty 1))) move, move, mem5, mem6, 1, (.portEmpty 1), 1,
    lookupsSound_of_check (by decide +kernel), by decide +kernel⟩,
   ⟨inBeat up (beat5 (.transfer mem5 mem6 1 none (some (.portFull 3))) move) (worker .transfer), beat5 (.transfer mem5
    mem6 1 none (some (.portFull 3))) move, move, mem5, mem6, 1, (.portFull 3), 3, lookupsSound_of_check
    (by decide +kernel), by decide +kernel⟩,
   ⟨inBeat (with1 up enabled) (beat5 (.transfer mem5 mem6 1 none (some (.portFull 1))) move) (worker .transfer), beat5
    (.transfer mem5 mem6 1 none (some (.portFull 1))) move, move, mem5, mem6, 1, (.portFull 1), 1,
    lookupsSound_of_check (by decide +kernel), by decide +kernel⟩⟩

/-- The hypotheses of MoveFinishPostsSignalsAndCompletes are met, clause by clause. -/
theorem witness_MoveFinishPostsSignalsAndCompletes :
    (∃ (s : State) (b : Beat) (r : RecordCopy), s.lookupsSound ∧ BeatEnds s b ∧ b.progress.current = some r ∧ r.kind =
    some .move ∧ (s.lane b.lane).state = .active ∧ (((b.work.isFinishStep = true ∧ (s.lane b.lane).pendingPost = none)
    ∨ (b.work = .finish ∧ (s.lane b.lane).phase = .finish ∧ r.word0.getLsbD 25 = true ∧ (s.lane b.lane).pendingPost =
    some ⟨.moveDone, r.word3.extractLsb' 0 16⟩))) ∧ (r.word0.getLsbD 25 = false ∨ s.queue.entries.length < 32)) ∧
    (∃ (s : State) (b : Beat) (r : RecordCopy), s.lookupsSound ∧ BeatEnds s b ∧ b.progress.current = some r ∧ r.kind =
    some .move ∧ (s.lane b.lane).state = .active ∧ (((b.work.isFinishStep = true ∧ (s.lane b.lane).pendingPost = none)
    ∨ (b.work = .finish ∧ (s.lane b.lane).phase = .finish ∧ r.word0.getLsbD 25 = true ∧ (s.lane b.lane).pendingPost =
    some ⟨.moveDone, r.word3.extractLsb' 0 16⟩))) ∧ r.word0.getLsbD 25 = true ∧ 32 ≤ s.queue.entries.length) :=
  ⟨⟨inBeat up (beat5 (.transfer mem5 mem6 1 none (some .finish)) movePost) (worker .transfer), beat5 (.transfer mem5 mem6
    1 none (some .finish)) movePost, movePost, lookupsSound_of_check (by decide +kernel), by decide +kernel⟩,
   ⟨inBeat full (beat5 .finish movePost) ({ worker .finish with pendingPost := some ⟨.moveDone, 0x77⟩ }), beat5 .finish
    movePost, movePost, lookupsSound_of_check (by decide +kernel), by decide +kernel⟩⟩

/-- The hypotheses of FinishBeatsRetryTheHeldEntry are met, clause by clause. -/
theorem witness_FinishBeatsRetryTheHeldEntry :
    (∃ (s : State) (b : Beat) (r : RecordCopy) (kind : EntryKind) (tag : Half), s.lookupsSound ∧ BeatEnds s b ∧
    b.progress.current = some r ∧ b.work = .finish ∧ (s.lane b.lane).phase = .finish ∧ (s.lane b.lane).pendingPost =
    some ⟨kind, tag⟩ ∧ 32 ≤ s.queue.entries.length) ∧
    (∃ (s : State) (b : Beat) (r : RecordCopy) (kind : EntryKind) (tag : Half), s.lookupsSound ∧ BeatEnds s b ∧
    b.progress.current = some r ∧ b.work = .finish ∧ (s.lane b.lane).phase = .finish ∧ (s.lane b.lane).pendingPost =
    some ⟨kind, tag⟩ ∧ s.queue.entries.length < 32 ∧ (r.kind = some .stop ∨ r.kind = some .post ∨ r.kind = some
    .wait)) :=
  ⟨⟨inBeat full (beat5 .finish post) ({ worker .finish with pendingPost := some ⟨.post, 0xA1⟩ }), beat5 .finish post,
    post, .post, 0xA1, lookupsSound_of_check (by decide +kernel), by decide +kernel⟩,
   ⟨inBeat up (beat5 .finish stopPost) ({ worker .finish with pendingPost := some ⟨.stop, 0xFF⟩ }), beat5 .finish
    stopPost, stopPost, .stop, 0xFF, lookupsSound_of_check (by decide +kernel), by decide +kernel⟩⟩

/-- The hypotheses of CellsEndOrContinueAResolution are met, clause by clause. -/
theorem witness_CellsEndOrContinueAResolution :
    (∃ (s : State) (b : Beat) (r : RecordCopy) (hop : BeatCursor) (cell : Word), s.lookupsSound ∧ BeatEnds s b ∧
    b.progress.current = some r ∧ (s.lane b.lane).phase = .resolve ∧ b.work = .resolve hop (some cell) ∧
    cell.extractLsb' 15 16 ≠ 0) ∧
    (∃ (s : State) (b : Beat) (r : RecordCopy) (hop : BeatCursor) (cell : Word), s.lookupsSound ∧ BeatEnds s b ∧
    b.progress.current = some r ∧ (s.lane b.lane).phase = .resolve ∧ b.work = .resolve hop (some cell) ∧
    cell.extractLsb' 15 16 = 0 ∧ cell.getLsbD 31 = true ∧ 7 ≤ b.progress.hopCount) ∧
    (∃ (s : State) (b : Beat) (r : RecordCopy) (hop : BeatCursor) (cell : Word), s.lookupsSound ∧ BeatEnds s b ∧
    b.progress.current = some r ∧ (s.lane b.lane).phase = .resolve ∧ b.work = .resolve hop (some cell) ∧
    cell.extractLsb' 15 16 = 0 ∧ cell.getLsbD 31 = true ∧ b.progress.hopCount < 7) ∧
    (∃ (s : State) (b : Beat) (r : RecordCopy) (hop : BeatCursor) (cell : Word), s.lookupsSound ∧ BeatEnds s b ∧
    b.progress.current = some r ∧ (s.lane b.lane).phase = .resolve ∧ b.work = .resolve hop (some cell) ∧
    cell.extractLsb' 15 16 = 0 ∧ cell.getLsbD 31 = false ∧ b.progress.resolveTarget = .src ∧ r.word2.getLsbD 31 =
    true) ∧
    (∃ (s : State) (b : Beat) (r : RecordCopy) (hop : BeatCursor) (cell : Word), s.lookupsSound ∧ BeatEnds s b ∧
    b.progress.current = some r ∧ (s.lane b.lane).phase = .resolve ∧ b.work = .resolve hop (some cell) ∧
    cell.extractLsb' 15 16 = 0 ∧ cell.getLsbD 31 = false ∧ (b.progress.resolveTarget = .dst ∨
    (b.progress.resolveTarget = .src ∧ r.word2.getLsbD 31 = false))) :=
  ⟨⟨inBeat up (beat5 (.resolve mem5 (some 0x00008000)) (move)) (worker .resolve), beat5 (.resolve mem5 (some 0x00008000))
    (move), move, mem5, 0x00008000, lookupsSound_of_check (by decide +kernel), by decide +kernel⟩,
   ⟨inBeat up ({ beat5 (.resolve mem5 (some 0x80000500)) (move) with progress := { (beat5 .dispatch (move)).progress with
    hopCount := 7 } }) (worker .resolve), { beat5 (.resolve mem5 (some 0x80000500)) (move) with progress := { (beat5
    .dispatch (move)).progress with hopCount := 7 } }, move, mem5, 0x80000500, lookupsSound_of_check
    (by decide +kernel), by decide +kernel⟩,
   ⟨inBeat up ({ beat5 (.resolve mem5 (some 0x80000500)) (move) with progress := { (beat5 .dispatch (move)).progress with
    hopCount := 6 } }) (worker .resolve), { beat5 (.resolve mem5 (some 0x80000500)) (move) with progress := { (beat5
    .dispatch (move)).progress with hopCount := 6 } }, move, mem5, 0x80000500, lookupsSound_of_check
    (by decide +kernel), by decide +kernel⟩,
   ⟨inBeat up ({ beat5 (.resolve mem5 (some 0x00000500)) (moveIndirectDst) with progress := { (beat5 .dispatch
    (moveIndirectDst)).progress with hopCount := 1 } }) (worker .resolve), { beat5 (.resolve mem5 (some 0x00000500))
    (moveIndirectDst) with progress := { (beat5 .dispatch (moveIndirectDst)).progress with hopCount := 1 } },
    moveIndirectDst, mem5, 0x00000500, lookupsSound_of_check (by decide +kernel), by decide +kernel⟩,
   ⟨inBeat up ({ beat5 (.resolve mem5 (some 0x00007FFF)) (move) with progress := { (beat5 .dispatch (move)).progress with
    hopCount := 7, resolveTarget := .dst } }) (worker .resolve), { beat5 (.resolve mem5 (some 0x00007FFF)) (move) with
    progress := { (beat5 .dispatch (move)).progress with hopCount := 7, resolveTarget := .dst } }, move, mem5,
    0x00007FFF, lookupsSound_of_check (by decide +kernel), by decide +kernel⟩⟩

/-- The hypotheses of ResolvedLinksAreActedOn are met, clause by clause. -/
theorem witness_ResolvedLinksAreActedOn :
    (∃ (s : State) (b : Beat) (r : RecordCopy) (hop : BeatCursor) (cell : Word), s.lookupsSound ∧ BeatEnds s b ∧
    b.progress.current = some r ∧ b.progress.resolveTarget = .link ∧ b.work = .resolve hop (some cell) ∧
    cell.extractLsb' 15 16 = 0 ∧ cell.getLsbD 31 = false ∧ cell.extractLsb' 0 2 ≠ 0) ∧
    (∃ (s : State) (b : Beat) (r : RecordCopy) (hop : BeatCursor) (cell : Word), s.lookupsSound ∧ BeatEnds s b ∧
    b.progress.current = some r ∧ b.progress.resolveTarget = .link ∧ b.work = .resolve hop (some cell) ∧
    cell.extractLsb' 15 16 = 0 ∧ cell.getLsbD 31 = false ∧ cell.extractLsb' 0 2 = 0 ∧ (r.word0.extractLsb' 0 12).toNat
    = 0) ∧
    (∃ (s : State) (b : Beat) (r : RecordCopy) (hop : BeatCursor) (cell : Word), s.lookupsSound ∧ BeatEnds s b ∧
    b.progress.current = some r ∧ b.progress.resolveTarget = .link ∧ b.work = .resolve hop (some cell) ∧
    cell.extractLsb' 15 16 = 0 ∧ cell.getLsbD 31 = false ∧ cell.extractLsb' 0 2 = 0 ∧ (r.word0.extractLsb' 0 12).toNat
    ≠ 0 ∧ (s.lane b.lane).repeatRecord = none) ∧
    (∃ (s : State) (b : Beat) (r : RecordCopy) (hop : BeatCursor) (cell : Word) (a : LAddr) (m : Nat), s.lookupsSound
    ∧ BeatEnds s b ∧ b.progress.current = some r ∧ b.progress.resolveTarget = .link ∧ b.work = .resolve hop (some
    cell) ∧ cell.extractLsb' 15 16 = 0 ∧ cell.getLsbD 31 = false ∧ cell.extractLsb' 0 2 = 0 ∧ (r.word0.extractLsb' 0
    12).toNat ≠ 0 ∧ (s.lane b.lane).repeatRecord = some ⟨a, m⟩ ∧ a = b.progress.pointer ∧ 1 < m) ∧
    (∃ (s : State) (b : Beat) (r : RecordCopy) (hop : BeatCursor) (cell : Word) (a : LAddr) (m : Nat), s.lookupsSound
    ∧ BeatEnds s b ∧ b.progress.current = some r ∧ b.progress.resolveTarget = .link ∧ b.work = .resolve hop (some
    cell) ∧ cell.extractLsb' 15 16 = 0 ∧ cell.getLsbD 31 = false ∧ cell.extractLsb' 0 2 = 0 ∧ (r.word0.extractLsb' 0
    12).toNat ≠ 0 ∧ (s.lane b.lane).repeatRecord = some ⟨a, m⟩ ∧ a = b.progress.pointer ∧ m ≤ 1 ∧ b.progress.pointer =
    0x7FFC) ∧
    (∃ (s : State) (b : Beat) (r : RecordCopy) (hop : BeatCursor) (cell : Word) (a : LAddr) (m : Nat), s.lookupsSound
    ∧ BeatEnds s b ∧ b.progress.current = some r ∧ b.progress.resolveTarget = .link ∧ b.work = .resolve hop (some
    cell) ∧ cell.extractLsb' 15 16 = 0 ∧ cell.getLsbD 31 = false ∧ cell.extractLsb' 0 2 = 0 ∧ (r.word0.extractLsb' 0
    12).toNat ≠ 0 ∧ (s.lane b.lane).repeatRecord = some ⟨a, m⟩ ∧ a = b.progress.pointer ∧ m ≤ 1 ∧ b.progress.pointer ≠
    0x7FFC) ∧
    (∃ (s : State) (b : Beat) (r : RecordCopy) (hop : BeatCursor) (cell : Word) (a : LAddr) (m : Nat), s.lookupsSound
    ∧ BeatEnds s b ∧ b.progress.current = some r ∧ b.progress.resolveTarget = .link ∧ b.work = .resolve hop (some
    cell) ∧ cell.extractLsb' 15 16 = 0 ∧ cell.getLsbD 31 = false ∧ cell.extractLsb' 0 2 = 0 ∧ (r.word0.extractLsb' 0
    12).toNat ≠ 0 ∧ (s.lane b.lane).repeatRecord = some ⟨a, m⟩ ∧ a ≠ b.progress.pointer) :=
  ⟨⟨inBeat up ({ beat5 (.resolve mem5 (some 0x00000502)) (link 3) with progress := { (beat5 .dispatch (link 3)).progress
    with resolveTarget := .link } }) (worker .resolve), { beat5 (.resolve mem5 (some 0x00000502)) (link 3) with
    progress := { (beat5 .dispatch (link 3)).progress with resolveTarget := .link } }, link 3, mem5, 0x00000502,
    lookupsSound_of_check (by decide +kernel), by decide +kernel⟩,
   ⟨inBeat up ({ beat5 (.resolve mem5 (some 0x00000500)) (link 0) with progress := { (beat5 .dispatch (link 0)).progress
    with resolveTarget := .link } }) (worker .resolve), { beat5 (.resolve mem5 (some 0x00000500)) (link 0) with
    progress := { (beat5 .dispatch (link 0)).progress with resolveTarget := .link } }, link 0, mem5, 0x00000500,
    lookupsSound_of_check (by decide +kernel), by decide +kernel⟩,
   ⟨inBeat up ({ beat5 (.resolve mem5 (some 0x00007FFC)) (link 4095) with progress := { (beat5 .dispatch (link
    4095)).progress with resolveTarget := .link } }) (worker .resolve), { beat5 (.resolve mem5 (some 0x00007FFC))
    (link 4095) with progress := { (beat5 .dispatch (link 4095)).progress with resolveTarget := .link } }, link 4095,
    mem5, 0x00007FFC, lookupsSound_of_check (by decide +kernel), by decide +kernel⟩,
   ⟨inBeat up ({ beat5 (.resolve mem5 (some 0x00000500)) (link 3) with progress := { (beat5 .dispatch (link 3)).progress
    with resolveTarget := .link } }) ({ worker .resolve with repeatRecord := some ⟨0x0400, 2⟩ }), { beat5 (.resolve
    mem5 (some 0x00000500)) (link 3) with progress := { (beat5 .dispatch (link 3)).progress with resolveTarget :=
    .link } }, link 3, mem5, 0x00000500, 0x0400, 2, lookupsSound_of_check (by decide +kernel), by decide +kernel⟩,
   ⟨inBeat up (lastRead) (lastPass 0x7FFC), lastRead, ⟨0x40000003, 0x80000410, 0, 0⟩, mem5, 0x00000500, 0x7FFC, 1,
    lookupsSound_of_check (by decide +kernel), by decide +kernel⟩,
   ⟨inBeat up ({ beat5 (.resolve mem5 (some 0x00000500)) (link 3) with progress := { (beat5 .dispatch (link 3)).progress
    with resolveTarget := .link } }) ({ worker .resolve with repeatRecord := some ⟨0x0400, 1⟩ }), { beat5 (.resolve
    mem5 (some 0x00000500)) (link 3) with progress := { (beat5 .dispatch (link 3)).progress with resolveTarget :=
    .link } }, link 3, mem5, 0x00000500, 0x0400, 1, lookupsSound_of_check (by decide +kernel), by decide +kernel⟩,
   ⟨inBeat up ({ beat5 (.resolve mem5 (some 0x00000500)) (link 3) with progress := { (beat5 .dispatch (link 3)).progress
    with resolveTarget := .link } }) ({ worker .resolve with repeatRecord := some ⟨0x0404, 1⟩ }), { beat5 (.resolve
    mem5 (some 0x00000500)) (link 3) with progress := { (beat5 .dispatch (link 3)).progress with resolveTarget :=
    .link } }, link 3, mem5, 0x00000500, 0x0404, 1, lookupsSound_of_check (by decide +kernel), by decide +kernel⟩⟩

/-- The hypotheses of DeferredRequestsAreTakenAtTheBeatEnd are met, clause by clause. -/
theorem witness_DeferredRequestsAreTakenAtTheBeatEnd :
    (∃ (s : State) (b : Beat) (u : State), s.lookupsSound ∧ exec .beatEnd (s.undeferred b.lane) = .next u ∧ s.resetPin
    = false ∧ s.beat = some b ∧ b.work.over = true ∧ (s.lane b.lane).state = .active ∧ (u.lane b.lane).state = .idle)
    ∧
    (∃ (s : State) (b : Beat) (u : State), s.lookupsSound ∧ exec .beatEnd (s.undeferred b.lane) = .next u ∧ s.resetPin
    = false ∧ s.beat = some b ∧ b.work.over = true ∧ (s.lane b.lane).state = .active ∧ (s.lane b.lane).deferred = some
    .abort) ∧
    (∃ (s : State) (b : Beat) (u : State) (cause : FaultCause) (role : Role), s.lookupsSound ∧ exec .beatEnd
    (s.undeferred b.lane) = .next u ∧ s.resetPin = false ∧ s.beat = some b ∧ b.work.over = true ∧ (s.lane
    b.lane).state = .active ∧ (s.lane b.lane).deferred = some (.fault cause role) ∧ ((u.lane b.lane).state = .faulted
    ∨ (u.lane b.lane).state = .idle)) ∧
    (∃ (s : State) (b : Beat) (u : State) (cause : FaultCause) (role : Role), s.lookupsSound ∧ exec .beatEnd
    (s.undeferred b.lane) = .next u ∧ s.resetPin = false ∧ s.beat = some b ∧ b.work.over = true ∧ (s.lane
    b.lane).state = .active ∧ (s.lane b.lane).deferred = some (.fault cause role) ∧ ((u.lane b.lane).state = .faulted
    ∨ (u.lane b.lane).state = .idle)) ∧
    (∃ (s : State) (b : Beat) (u : State) (cause : FaultCause) (role : Role), s.lookupsSound ∧ exec .beatEnd
    (s.undeferred b.lane) = .next u ∧ s.resetPin = false ∧ s.beat = some b ∧ b.work.over = true ∧ (s.lane
    b.lane).state = .active ∧ (s.lane b.lane).deferred = some (.fault cause role) ∧ ((u.lane b.lane).state = .active ∨
    (u.lane b.lane).state = .blocked ∨ (u.lane b.lane).state = .waiting ∨ (u.lane b.lane).state = .halted)) ∧
    (∃ (s : State) (b : Beat) (u : State) (cause : FaultCause) (role : Role), s.lookupsSound ∧ exec .beatEnd
    (s.undeferred b.lane) = .next u ∧ s.resetPin = false ∧ s.beat = some b ∧ b.work.over = true ∧ (s.lane
    b.lane).state = .active ∧ (s.lane b.lane).deferred = some (.fault cause role) ∧ ((u.lane b.lane).state = .active ∨
    (u.lane b.lane).state = .blocked ∨ (u.lane b.lane).state = .waiting ∨ (u.lane b.lane).state = .halted)) ∧
    (∃ (s : State) (b : Beat) (u : State) (cause : FaultCause) (role : Role), s.lookupsSound ∧ exec .beatEnd
    (s.undeferred b.lane) = .next u ∧ s.resetPin = false ∧ s.beat = some b ∧ b.work.over = true ∧ (s.lane
    b.lane).state = .active ∧ (s.lane b.lane).deferred = some (.fault cause role) ∧ ((u.lane b.lane).state = .active ∨
    (u.lane b.lane).state = .blocked ∨ (u.lane b.lane).state = .waiting ∨ (u.lane b.lane).state = .halted)) ∧
    (∃ (s : State) (b : Beat) (u : State), s.lookupsSound ∧ exec .beatEnd (s.undeferred b.lane) = .next u ∧ s.resetPin
    = false ∧ s.beat = some b ∧ b.work.over = true ∧ (s.lane b.lane).state = .active ∧ (s.lane b.lane).deferred = some
    .halt ∧ ((u.lane b.lane).state = .active ∨ (u.lane b.lane).state = .blocked ∨ (u.lane b.lane).state = .waiting)) ∧
    (∃ (s : State) (b : Beat) (u : State), s.lookupsSound ∧ exec .beatEnd (s.undeferred b.lane) = .next u ∧ s.resetPin
    = false ∧ s.beat = some b ∧ b.work.over = true ∧ (s.lane b.lane).state = .active ∧ (s.lane b.lane).deferred = some
    .halt ∧ ((u.lane b.lane).state = .active ∨ (u.lane b.lane).state = .blocked ∨ (u.lane b.lane).state = .waiting)) ∧
    (∃ (s : State) (b : Beat) (u : State), s.lookupsSound ∧ exec .beatEnd (s.undeferred b.lane) = .next u ∧ s.resetPin
    = false ∧ s.beat = some b ∧ b.work.over = true ∧ (s.lane b.lane).state = .active ∧ (s.lane b.lane).deferred = some
    .halt ∧ ((u.lane b.lane).state = .active ∨ (u.lane b.lane).state = .blocked ∨ (u.lane b.lane).state = .waiting)) ∧
    (∃ (s : State) (b : Beat) (u : State), s.lookupsSound ∧ exec .beatEnd (s.undeferred b.lane) = .next u ∧ s.resetPin
    = false ∧ s.beat = some b ∧ b.work.over = true ∧ (s.lane b.lane).state = .active ∧ (s.lane b.lane).deferred = some
    .halt ∧ (u.lane b.lane).state = .halted) ∧
    (∃ (s : State) (b : Beat) (u : State), s.lookupsSound ∧ exec .beatEnd (s.undeferred b.lane) = .next u ∧ s.resetPin
    = false ∧ s.beat = some b ∧ b.work.over = true ∧ (s.lane b.lane).state = .active ∧ (s.lane b.lane).deferred = some
    .halt ∧ ((u.lane b.lane).state = .idle ∨ (u.lane b.lane).state = .faulted)) ∧
    (∃ (s : State) (b : Beat) (u : State), s.lookupsSound ∧ exec .beatEnd (s.undeferred b.lane) = .next u ∧ s.resetPin
    = false ∧ s.beat = some b ∧ b.work.over = true ∧ (s.lane b.lane).state = .active ∧ (s.lane b.lane).deferred = some
    .halt ∧ ((u.lane b.lane).state = .idle ∨ (u.lane b.lane).state = .faulted)) ∧
    (∃ (s : State) (b : Beat) (src : BeatCursor) (dst : BeatCursor) (moved : Nat) (cause : FaultCause) (role : Role),
    s.lookupsSound ∧ s.resetPin = false ∧ s.beat = some b ∧ b.work.over = true ∧ (s.lane b.lane).state = .active ∧
    b.work = .transfer src dst moved none (some .burst) ∧ b.progress.current.isSome = true ∧ (s.lane b.lane).deferred
    = some (.fault cause role)) ∧
    (∃ (s : State) (b : Beat) (src : BeatCursor) (dst : BeatCursor) (moved : Nat), s.lookupsSound ∧ s.resetPin = false
    ∧ s.beat = some b ∧ b.work.over = true ∧ (s.lane b.lane).state = .active ∧ b.work = .transfer src dst moved none
    (some .burst) ∧ b.progress.current.isSome = true ∧ (s.lane b.lane).deferred = some .halt) :=
  ⟨⟨inBeat up (beat5 .dispatch stopPost) (asked (none)), beat5 .dispatch stopPost, beatEnd ((inBeat up (beat5 .dispatch
    stopPost) (asked (none))).undeferred 5), lookupsSound_of_check (by decide +kernel), rfl, by decide +kernel⟩,
   ⟨inBeat up (beat5 .dispatch post) (asked (some .abort)), beat5 .dispatch post, beatEnd ((inBeat up (beat5 .dispatch
    post) (asked (some .abort))).undeferred 5), lookupsSound_of_check (by decide +kernel), rfl, by decide +kernel⟩,
   ⟨inBeat up (beat5 .dispatch link1) (repeating (asked (some (.fault .denied .hop)))), beat5 .dispatch link1, beatEnd
    ((inBeat up (beat5 .dispatch link1) (repeating (asked (some (.fault .denied .hop))))).undeferred 5), .denied,
    .hop, lookupsSound_of_check (by decide +kernel), rfl, by decide +kernel⟩,
   ⟨inBeat up (beat5 .dispatch stopPost) (asked (some (.fault .denied .src))), beat5 .dispatch stopPost, beatEnd ((inBeat
    up (beat5 .dispatch stopPost) (asked (some (.fault .denied .src)))).undeferred 5), .denied, .src,
    lookupsSound_of_check (by decide +kernel), rfl, by decide +kernel⟩,
   ⟨inBeat up (beat5 .dispatch move) (asked (some (.fault .denied .hop))), beat5 .dispatch move, beatEnd ((inBeat up
    (beat5 .dispatch move) (asked (some (.fault .denied .hop)))).undeferred 5), .denied, .hop, lookupsSound_of_check
    (by decide +kernel), rfl, by decide +kernel⟩,
   ⟨inBeat up (beat5 .dispatch wait2) (asked (some (.fault .portOff .dst))), beat5 .dispatch wait2, beatEnd ((inBeat up
    (beat5 .dispatch wait2) (asked (some (.fault .portOff .dst)))).undeferred 5), .portOff, .dst,
    lookupsSound_of_check (by decide +kernel), rfl, by decide +kernel⟩,
   ⟨inBeat up ({ beat5 .dispatch post with step := true }) (asked (some (.fault .denied .walk))), { beat5 .dispatch post
    with step := true }, beatEnd ((inBeat up ({ beat5 .dispatch post with step := true }) (asked (some (.fault .denied
    .walk)))).undeferred 5), .denied, .walk, lookupsSound_of_check (by decide +kernel), rfl, by decide +kernel⟩,
   ⟨inBeat up (beat5 .dispatch move) (asked (some .halt)), beat5 .dispatch move, beatEnd ((inBeat up (beat5 .dispatch
    move) (asked (some .halt))).undeferred 5), lookupsSound_of_check (by decide +kernel), rfl, by decide +kernel⟩,
   ⟨inBeat up (beat5 .dispatch wait2) (asked (some .halt)), beat5 .dispatch wait2, beatEnd ((inBeat up (beat5 .dispatch
    wait2) (asked (some .halt))).undeferred 5), lookupsSound_of_check (by decide +kernel), rfl, by decide +kernel⟩,
   ⟨inBeat up (beat5 .dispatch post) (asked (some .halt)), beat5 .dispatch post, beatEnd ((inBeat up (beat5 .dispatch
    post) (asked (some .halt))).undeferred 5), lookupsSound_of_check (by decide +kernel), rfl, by decide +kernel⟩,
   ⟨inBeat up ({ beat5 .dispatch post with step := true }) (asked (some .halt)), { beat5 .dispatch post with step := true
    }, beatEnd ((inBeat up ({ beat5 .dispatch post with step := true }) (asked (some .halt))).undeferred 5),
    lookupsSound_of_check (by decide +kernel), rfl, by decide +kernel⟩,
   ⟨inBeat up (beat5 .dispatch stopPost) (asked (some .halt)), beat5 .dispatch stopPost, beatEnd ((inBeat up (beat5
    .dispatch stopPost) (asked (some .halt))).undeferred 5), lookupsSound_of_check (by decide +kernel), rfl,
    by decide +kernel⟩,
   ⟨inBeat up (beat5 .dispatch link1) (repeating (asked (some .halt))), beat5 .dispatch link1, beatEnd ((inBeat up (beat5
    .dispatch link1) (repeating (asked (some .halt)))).undeferred 5), lookupsSound_of_check (by decide +kernel), rfl,
    by decide +kernel⟩,
   ⟨inBeat up (beat5 (.transfer mem5 mem6 1 none (some .burst)) move) ({ worker .transfer with deferred := some (.fault
    .denied .hop) }), beat5 (.transfer mem5 mem6 1 none (some .burst)) move, mem5, mem6, 1, .denied, .hop,
    lookupsSound_of_check (by decide +kernel), by decide +kernel⟩,
   ⟨inBeat up (beat5 (.transfer mem5 mem6 1 none (some .burst)) move) ({ worker .transfer with deferred := some .halt }),
    beat5 (.transfer mem5 mem6 1 none (some .burst)) move, mem5, mem6, 1, lookupsSound_of_check (by decide +kernel),
    by decide +kernel⟩⟩

/-- The hypotheses of LookupStartChoosesTheCursor are met, clause by clause. -/
theorem witness_LookupStartChoosesTheCursor :
    (∃ (s : State) (before : List (LaneId × Role)) (after : List (LaneId × Role)) (l : LaneId) (r : Role),
    s.lookupsSound ∧ ((s.wheel.nextEntry.named = some l ∧ ∀ q ∈ before, q.1 ≠ l) ∨ (before = [] ∧ ∀ k,
    s.wheel.nextEntry.named = some k → ∀ q ∈ s.map.queue, q.1 ≠ k)) ∧ s.resetPin = false ∧ s.map.lookup = none ∧
    s.map.queue = before ++ (l, r) :: after) ∧
    (∃ (s : State) (before : List (LaneId × Role)) (after : List (LaneId × Role)) (l : LaneId) (r : Role),
    s.lookupsSound ∧ ((s.wheel.nextEntry.named = some l ∧ ∀ q ∈ before, q.1 ≠ l) ∨ (before = [] ∧ ∀ k,
    s.wheel.nextEntry.named = some k → ∀ q ∈ s.map.queue, q.1 ≠ k)) ∧ s.resetPin = false ∧ s.map.lookup = none ∧
    s.map.queue = before ++ (l, r) :: after) ∧
    (∃ (s : State), s.lookupsSound ∧ s.resetPin = false ∧ (s.map.lookup.isSome = true ∨ s.map.queue = [])) :=
  ⟨⟨{ serving5 (with5 up { idler .blocked with reasons := ⟨true, false, false⟩, walk := ⟨4, .pending⟩ }) with map :=
    ⟨up.map.entries, [(5, .walk)], none⟩ }, [], [], 5, .walk, lookupsSound_of_check (by decide +kernel), Or.inl
    (by decide +kernel), by decide +kernel⟩,
   ⟨{ with5 up { idler .blocked with reasons := ⟨true, false, false⟩, walk := ⟨4, .pending⟩ } with map :=
    ⟨up.map.entries, [(5, .walk)], none⟩ }, [], [], 5, .walk, lookupsSound_of_check (by decide +kernel), Or.inr ⟨rfl,
    forall_of_none (by decide +kernel)⟩, by decide +kernel⟩,
   ⟨up, lookupsSound_of_check (by decide +kernel), by decide +kernel⟩⟩

/-- The hypotheses of LookupCompletionMapsFaultsOrDiscards are met, clause by clause. -/
theorem witness_LookupCompletionMapsFaultsOrDiscards :
    (∃ (s : State), s.lookupsSound ∧ s.resetPin = false ∧ s.map.lookup = none) ∧
    (∃ (s : State) (k : Lookup), s.lookupsSound ∧ s.resetPin = false ∧ s.map.lookup = some k ∧ k.disposition = .live ∧
    (s.mapEntry k.page).check k.lane k.role = none) ∧
    (∃ (s : State) (k : Lookup) (cause : FaultCause), s.lookupsSound ∧ s.resetPin = false ∧ s.map.lookup = some k ∧
    k.disposition = .live ∧ (s.mapEntry k.page).check k.lane k.role = some cause ∧ ((s.lane k.lane).state = .active →
    s.ownBeat k.lane = false)) ∧
    (∃ (s : State) (k : Lookup) (cause : FaultCause), s.lookupsSound ∧ s.resetPin = false ∧ s.map.lookup = some k ∧
    k.disposition = .live ∧ (s.mapEntry k.page).check k.lane k.role = some cause ∧ (s.lane k.lane).state = .active ∧
    s.ownBeat k.lane = true) ∧
    (∃ (s : State) (k : Lookup), s.lookupsSound ∧ s.resetPin = false ∧ s.map.lookup = some k ∧ k.disposition = .stale)
    ∧
    (∃ (s : State) (k : Lookup), s.lookupsSound ∧ s.resetPin = false ∧ s.map.lookup = some k ∧ k.disposition =
    .abandoned) :=
  ⟨⟨up, lookupsSound_of_check (by decide +kernel), by decide +kernel⟩,
   ⟨mappedPage (looking .live { idler .blocked with reasons := ⟨true, false, false⟩ }), ⟨5, .walk, 4, .live⟩,
    lookupsSound_of_check (by decide +kernel), by decide +kernel⟩,
   ⟨looking .live { idler .blocked with reasons := ⟨true, false, false⟩ }, ⟨5, .walk, 4, .live⟩, .unmapped,
    lookupsSound_of_check (by decide +kernel), by decide +kernel⟩,
   ⟨{ looking .live (worker .dispatch) with beat := some (beat5 .dispatch move) }, ⟨5, .walk, 4, .live⟩, .unmapped,
    lookupsSound_of_check (by decide +kernel), by decide +kernel⟩,
   ⟨looking .stale { idler .blocked with reasons := ⟨true, false, false⟩ }, ⟨5, .walk, 4, .stale⟩, lookupsSound_of_check
    (by decide +kernel), by decide +kernel⟩,
   ⟨looking .abandoned { idler .blocked with reasons := ⟨true, false, false⟩ }, ⟨5, .walk, 4, .abandoned⟩,
    lookupsSound_of_check (by decide +kernel), by decide +kernel⟩⟩

/-- The hypotheses of FrameStartPreparesBothDirections are met, clause by clause. -/
theorem witness_FrameStartPreparesBothDirections :
    (∃ (s : State) (p : PortId), s.resetPin = false ∧ (s.port p).txEnable = false) ∧
    (∃ (s : State) (p : PortId), s.resetPin = false ∧ (s.port p).txEnable = true ∧ (s.port p).txFifo = []) ∧
    (∃ (s : State) (p : PortId) (w : Word) (rest : List Word), s.resetPin = false ∧ (s.port p).txEnable = true ∧
    (s.port p).txFifo = w :: rest) :=
  ⟨⟨up, 1, by decide +kernel⟩,
   ⟨with1 up enabled, 1, by decide +kernel⟩,
   ⟨with1 up { enabled with txFifo := [7] }, 1, 7, [], by decide +kernel⟩⟩

/-- The hypotheses of FrameEndOffersTheReceivedWord are met, clause by clause. -/
theorem witness_FrameEndOffersTheReceivedWord :
    (∃ (s : State) (p : PortId), s.resetPin = false ∧ (s.port p).inFrame = false) ∧
    (∃ (s : State) (p : PortId), s.resetPin = false ∧ (s.port p).bits ≠ 31) ∧
    (∃ (s : State) (p : PortId), s.resetPin = false ∧ (s.port p).inFrame = true ∧ (s.port p).bits < 31) ∧
    (∃ (s : State) (p : PortId), s.resetPin = false ∧ (s.port p).inFrame = true ∧ (s.port p).bits = 31 ∧ (s.port
    p).capture = false) ∧
    (∃ (s : State) (p : PortId), s.resetPin = false ∧ (s.port p).inFrame = true ∧ (s.port p).bits = 31 ∧ (s.port
    p).capture = true ∧ 32 ≤ (s.port p).rxFifo.length) ∧
    (∃ (s : State) (p : PortId), s.resetPin = false ∧ (s.port p).inFrame = true ∧ (s.port p).bits = 31 ∧ (s.port
    p).capture = true ∧ (s.port p).rxFifo.length < 32) :=
  ⟨⟨up, 1, by decide +kernel⟩,
   ⟨with1 up (framed 30 true []), 1, by decide +kernel⟩,
   ⟨with1 up (framed 30 true []), 1, by decide +kernel⟩,
   ⟨with1 up (framed 31 false []), 1, by decide +kernel⟩,
   ⟨with1 up (framed 31 true (List.replicate 32 0)), 1, by decide +kernel⟩,
   ⟨with1 up (framed 31 true (List.replicate 31 0)), 1, by decide +kernel⟩⟩

/-- The hypotheses of MemoryStaysCanonical are met, clause by clause. -/
theorem witness_MemoryStaysCanonical :
    ∃ (s : State) (t : State), step s = .next t ∧ s.memoryCanonical :=
  ⟨{ up with mem := [(0, 1), (16383, 2)] }, _, rfl, by decide +kernel⟩

/-- The hypotheses of QueueStaysInSequence are met, clause by clause. -/
theorem witness_QueueStaysInSequence :
    ∃ (s : State) (t : State), step s = .next t ∧ s.queue.inOrder :=
  ⟨{ up with queue := ⟨[⟨255, 0, .post, 0, 0, 0⟩, ⟨0, 0, .post, 0, 0, 0⟩], 1, 0⟩ }, _, rfl, by decide +kernel⟩

/-- The hypotheses of LaneContextsStayConsistent are met, clause by clause. -/
theorem witness_LaneContextsStayConsistent :
    ∃ (s : State) (t : State), s.lanesConsistent ∧ step s = .next t :=
  ⟨with5 up (halter (.blocked ⟨false, false, true⟩)), _, lanesConsistent_of_check (by decide +kernel), rfl⟩

/-- The hypotheses of NoLaneWaitsForWhatIsThere are met, clause by clause. -/
theorem witness_NoLaneWaitsForWhatIsThere :
    (∃ (s : State) (t : State), step s = .next t ∧ s.signalsUnawaited) ∧
    (∃ (s : State) (t : State), step s = .next t ∧ s.queueHeldOnlyFull) :=
  ⟨⟨with5 { up with signals := 0xFFFB } (waiter ⟨4, true, 0, false, 9⟩), _, rfl, signalsUnawaited_of_check
    (by decide +kernel)⟩,
   ⟨with5 full { idler .blocked with reasons := ⟨false, false, true⟩ }, _, rfl, by decide +kernel⟩⟩

/-- The hypotheses of LookupUnitStaysSound are met, clause by clause. -/
theorem witness_LookupUnitStaysSound :
    ∃ (s : State) (t : State), s.lookupsSound ∧ step s = .next t :=
  ⟨looking .live { idler .blocked with reasons := ⟨true, false, false⟩ }, _, lookupsSound_of_check
    (by decide +kernel), rfl⟩

/-- The hypotheses of MappedCursorsAgreeWithThePageMap are met, clause by clause. -/
theorem witness_MappedCursorsAgreeWithThePageMap :
    ∃ (s : State) (t : State), s.cursorsAgree ∧ step s = .next t :=
  ⟨with5 (mappedPage up) { idler .waiting with walk := mapped 4 }, _, cursorsAgree_of_check (by decide +kernel), rfl⟩

/-- The hypotheses of PortsStaySound are met, clause by clause. -/
theorem witness_PortsStaySound :
    ∃ (s : State) (t : State), s.portsSound ∧ step s = .next t :=
  ⟨with1 up (framed 31 true (List.replicate 32 0)), _, ⟨by decide +kernel, forall_of_none (by decide +kernel)⟩, rfl⟩

/-- The hypotheses of NoBeatMeetsAClearPass are met, clause by clause. -/
theorem witness_NoBeatMeetsAClearPass :
    ∃ (s : State) (t : State), s.wheelSound ∧ step s = .next t :=
  ⟨running, _, ⟨by decide +kernel, by decide +kernel, forall_of_some (b := ⟨256, 0⟩) (by decide +kernel)
    (by decide +kernel), by decide +kernel⟩, rfl⟩
end Sys2Proof.Tests
end

section
/-! SUPPORT. The rules the proofs about beat ends share: what an operation on one lane makes of that lane and of INT_STATUS,
and what the release of a lane's cursors makes of a sound lookup unit. -/

namespace Sys2Proof.Machine

/-! ### Interrupt masks -/

@[simp] theorem Interrupts.setting_zero (i : Interrupts) : i.setting 0#8 = i := by
  simp [Interrupts.setting]

@[simp] theorem Interrupts.setting_setting (i : Interrupts) (a b : BitVec 8) :
    (i.setting a).setting b = i.setting (a ||| b) := by
  simp [Interrupts.setting, BitVec.or_assoc]

/-! ### One lane, and the bits it sets -/

/-- From `s` to `t` lane `l` has become `x` and the bits of `mask` are set in INT_STATUS; `OnlyLane` says what else is
kept. -/
structure Leaves (l : LaneId) (x : Lane) (mask : BitVec 8) (s t : State) : Prop extends OnlyLane l s t where
  lane : t.lane l = x
  ints : t.ints = s.ints.setting mask

theorem Leaves.refl (l : LaneId) (s : State) : Leaves l (s.lane l) 0 s s := ⟨.refl l s, rfl, by simp⟩

theorem Leaves.trans {l : LaneId} {x y : Lane} {a b : BitVec 8} {s t u : State} (h : Leaves l x a s t)
    (g : Leaves l y b t u) : Leaves l y (a ||| b) s u :=
  ⟨h.toOnlyLane.trans g.toOnlyLane, g.lane, by rw [g.ints, h.ints, Interrupts.setting_setting]⟩

/-- An operation that sets no bit, after one that does. -/
theorem Leaves.quiet {l : LaneId} {x y : Lane} {a : BitVec 8} {s t u : State} (h : Leaves l x a s t)
    (g : Leaves l y 0 t u) : Leaves l y a s u := by
  simpa using h.trans g

/-- An operation that sets bits, after one that sets none. -/
theorem Leaves.after {l : LaneId} {x y : Lane} {b : BitVec 8} {s t u : State} (h : Leaves l x 0 s t)
    (g : Leaves l y b t u) : Leaves l y b s u := by
  simpa using h.trans g

/-- The state with other signals. -/
def State.withSignals (s : State) (signals : Half) : State := { s with signals := signals }

/-- What one lane becomes does not turn on the signals. -/
theorem Leaves.withSignals {l : LaneId} {x : Lane} {a : BitVec 8} {s t : State} (h : Leaves l x a s t)
    (signals : Half) : Leaves l x a (s.withSignals signals) (t.withSignals signals) :=
  { h with signals := rfl }

/-- All that a one-lane operation can change is named in the update. -/
theorem OnlyLane.frame {l : LaneId} {s t : State} (h : OnlyLane l s t) :
    t = { s with lanes := t.lanes, map := t.map, ints := t.ints, window := t.window } := by
  obtain ⟨-, hbeat, hwheel, -, hsignals, hqueue, -, hports, hmem, -, hclearing, hreset, hpending⟩ := h
  cases t
  simp_all

/-- All that operations on several lanes can change is named in the update. -/
theorem OnlyLanes.frame {p : LaneId → Prop} {s t : State} (h : OnlyLanes p s t) :
    t = { s with lanes := t.lanes, map := t.map, signals := t.signals, ints := t.ints, window := t.window } := by
  obtain ⟨-, hbeat, hwheel, -, hqueue, -, hports, hmem, -, hclearing, hreset, hpending⟩ := h
  cases t
  simp_all

/-! ### The lane a rule leaves -/

/-- An UNSET cursor's page is 0 (R104). -/
def Lane.tidy (x : Lane) : Prop := ∀ r, (x.cursor r).status = .unset → (x.cursor r).page = 0

theorem Cursor.eq_unset {c : Cursor} (hstatus : c.status = .unset) (hpage : c.page = 0) : c = .unset := by
  cases c
  simp_all [Cursor.unset]

/-- A tidy lane's UNSET cursor is the released cursor. -/
theorem Lane.tidy.cursor_eq {x : Lane} (h : x.tidy) {r : Role} (e : (x.cursor r).status = .unset) :
    x.cursor r = .unset := Cursor.eq_unset e (h r e)

/-- A lane stays tidy when a cursor gets page 0 or a status other than UNSET. -/
theorem Lane.tidy.setCursor {x : Lane} (h : x.tidy) (r : Role) {c : Cursor} (hc : c.status = .unset → c.page = 0) :
    (x.setCursor r c).tidy := by
  intro q
  by_cases e : q = r
  · rw [e, Lane.cursor_setCursor_same]
    exact hc
  · rw [Lane.cursor_setCursor_other x c e]
    exact h q

/-- A retargeted cursor is not UNSET (R105). -/
theorem Cursor.retargeted_set (c : Cursor) (page : BitVec 7) : (c.retargeted page).status ≠ .unset := by
  unfold Cursor.retargeted
  split <;> try split
  all_goals simp

/-- The lane of a beat once the beat is counted and nothing is deferred (R72 step 5). -/
def Lane.counted (x : Lane) : Lane := { x with beats := x.beats + 1, deferred := none }

/-- The lane of a record that has completed with its pointer at a target, before STEP is looked at (R7, R16, R90). -/
def Lane.landed (x : Lane) (target : LAddr) : Lane :=
  { x with
    phase := .load, progress := { x.progress with pointer := target, current := none }
    walk := x.walk.retargeted target.page }

theorem Lane.jumped_eq (x : Lane) (target : LAddr) (step : Bool) :
    x.jumped target step =
      if step then (x.landed target).haltedBy .step .active else (x.landed target).enterActive := rfl

/-- The lane whose completion faults RANGE at 0x7FFC, before the fault (R16; log 11). -/
def Lane.stranded (x : Lane) : Lane := { x with phase := .load, progress := { x.progress with current := none } }

theorem Lane.completed_last {x : Lane} (h : x.progress.pointer = 0x7FFC) (step : Bool) :
    x.completed step = x.stranded.faultedWith ⟨.range, 0x7FFC, 0x7FFC, .walk, 0⟩ := by
  rw [Lane.completed, if_pos h]
  rfl

theorem Lane.completed_next {x : Lane} (h : x.progress.pointer ≠ 0x7FFC) (step : Bool) :
    x.completed step = x.jumped (x.progress.pointer + 4) step := by
  rw [Lane.completed, if_neg h]

/-- A lane keeps its cursors tidy when it enters ACTIVE or HALTED. -/
theorem Lane.tidy_enterActive {x : Lane} (h : x.tidy) : x.enterActive.tidy := by
  unfold Lane.enterActive
  split <;> exact h

theorem Lane.tidy_landed {x : Lane} (h : x.tidy) (target : LAddr) : (x.landed target).tidy :=
  h.setCursor .walk fun e => absurd e (Cursor.retargeted_set _ _)

theorem Lane.tidy_faultedWith (x : Lane) (f : FaultRecord) : (x.faultedWith f).tidy := by
  rintro (_ | _ | _ | _) - <;> rfl

theorem Lane.tidy_completed {x : Lane} (h : x.tidy) (step : Bool) : (x.completed step).tidy := by
  by_cases e : x.progress.pointer = 0x7FFC
  · rw [Lane.completed_last e]
    exact Lane.tidy_faultedWith _ _
  · rw [Lane.completed_next e, Lane.jumped_eq]
    split
    · exact Lane.tidy_landed h _
    · exact Lane.tidy_enterActive (Lane.tidy_landed h _)

/-! ### Lane updates -/

theorem State.setLane_self (s : State) (l : LaneId) : s.setLane l (s.lane l) = s := by
  have h : (s.setLane l (s.lane l)).lanes = s.lanes := State.lanes_ext fun k => by
    rw [State.lane_setLane]
    split
    · next e => rw [e]
    · rfl
  calc s.setLane l (s.lane l) = { s with lanes := (s.setLane l (s.lane l)).lanes } := rfl
    _ = s := by rw [h]

@[simp] theorem State.setLane_setLane (s : State) (l : LaneId) (x y : Lane) :
    (s.setLane l x).setLane l y = s.setLane l y := by
  simp [State.setLane]

@[simp] theorem State.updLane_updLane (s : State) (l : LaneId) (f g : Lane → Lane) :
    (s.updLane l f).updLane l g = s.updLane l fun x => g (f x) := by
  simp [State.updLane]

theorem leaves_updLane {s : State} {l : LaneId} {x : Lane} (h : s.lane l = x) (f : Lane → Lane) :
    Leaves l (f x) 0 s (s.updLane l f) :=
  ⟨onlyLane_updLane l s f, h ▸ State.lane_updLane_same s l f, by simp⟩

theorem leaves_countBeat {s : State} {l : LaneId} {x : Lane} (h : s.lane l = x) :
    Leaves l x.counted 0 s (countBeat s l) :=
  leaves_updLane h fun x => { x with beats := x.beats + 1, deferred := none }

/-! ### The record copy -/

@[simp] theorem touchCopy_lane (s : State) (l k : LaneId) : (touchCopy s l).lane k = s.lane k := by
  unfold touchCopy
  split <;> rfl

@[simp] theorem touchCopy_ints (s : State) (l : LaneId) : (touchCopy s l).ints = s.ints := by
  unfold touchCopy
  split <;> rfl

@[simp] theorem touchCopy_map (s : State) (l : LaneId) : (touchCopy s l).map = s.map := by
  unfold touchCopy
  split <;> rfl

/-- A drop leaves the lane without a copy, whether it held one or not (R1). -/
theorem leaves_dropCopy {s : State} {l : LaneId} {x : Lane} (hx : s.lane l = x) :
    Leaves l { x with progress := { x.progress with current := none } } 0 s (dropCopy s l) := by
  subst hx
  refine ⟨onlyLane_dropCopy s l, ?_, ?_⟩
  · unfold dropCopy
    split
    · simp
    · next h =>
      have hnone : (s.lane l).progress.current = none := by simpa using h
      rw [← hnone]
  · unfold dropCopy
    split <;> simp

@[simp] theorem dropCopy_map (s : State) (l : LaneId) : (dropCopy s l).map = s.map := by
  unfold dropCopy
  split <;> simp

/-! ### Cursors -/

theorem leaves_retarget {s : State} {l : LaneId} {x : Lane} (hx : s.lane l = x) (r : Role) (page : BitVec 7) :
    Leaves l (x.setCursor r ((x.cursor r).retargeted page)) 0 s (retarget s l r page) := by
  subst hx
  refine ⟨onlyLane_retarget s l r page, retarget_lane s l r page, .trans ?_ (Interrupts.setting_zero _).symm⟩
  unfold retarget
  dsimp only
  split <;> try split
  all_goals rfl

/-- A retarget appends the cursor to the lookup request queue, or leaves the queue as it is (R105). -/
theorem retarget_queue (s : State) (l : LaneId) (r : Role) (page : BitVec 7) :
    (retarget s l r page).map.queue = s.map.queue ++ ((s.lane l).cursor r).appended l r page := by
  unfold retarget Cursor.appended
  dsimp only
  cases ((s.lane l).cursor r).status with
  | unset => rfl
  | pending => simp
  | inFlight =>
    dsimp only
    split <;> simp [State.markStale]
  | mapped t =>
    dsimp only
    split
    · simp
    · rfl

/-- A release of a tidy lane's cursor makes it UNSET on page 0 (R106). -/
theorem leaves_release {s : State} {l : LaneId} {x : Lane} (hx : s.lane l = x) (h : x.tidy) (r : Role) :
    Leaves l (x.setCursor r .unset) 0 s (release s l r) := by
  subst hx
  refine ⟨onlyLane_release s l r, ?_, .trans ?_ (Interrupts.setting_zero _).symm⟩
  · rw [release_lane]
    split
    · next e => rw [← h.cursor_eq e, Lane.setCursor_self]
    · rfl
  · unfold release
    dsimp only
    split <;> rfl

/-- A lane with every cursor released. -/
def Lane.uncursored (x : Lane) : Lane := { x with walk := .unset, hop := .unset, src := .unset, dst := .unset }

theorem leaves_releaseAll {s : State} {l : LaneId} {x : Lane} (hx : s.lane l = x) (h : x.tidy) :
    Leaves l x.uncursored 0 s (releaseAll s l) := by
  have hwalk := leaves_release hx h .walk
  have h1 := h.setCursor .walk (c := .unset) fun _ => rfl
  have hhop := hwalk.quiet (leaves_release hwalk.lane h1 .hop)
  have h2 := h1.setCursor .hop (c := .unset) fun _ => rfl
  have hsrc := hhop.quiet (leaves_release hhop.lane h2 .src)
  have h3 := h2.setCursor .src (c := .unset) fun _ => rfl
  exact hsrc.quiet (leaves_release hsrc.lane h3 .dst)

/-! ### Entries into lane states -/

/-- A lane that settles without a reason of its own enters ACTIVE, checked (R25). -/
theorem leaves_settle_empty {s : State} {l : LaneId} {x : Lane} (hx : s.lane l = x) :
    Leaves l x.enterActive 0 s (settle s l .empty) := by
  subst hx
  refine ⟨onlyLane_settle s l _, ?_, by simp [settle]⟩
  rw [settle, State.lane_updLane_same]
  unfold Lane.enterActive
  cases (s.lane l).neededMapped <;> simp [Reasons.empty]

/-- Entry to HALTED, in full (R30, R36, R37). -/
theorem enterHalted_eq (s : State) (l : LaneId) (reason : HaltReason) (resume : Resume) :
    enterHalted s l reason resume =
      { s.setLane l ((s.lane l).haltedBy reason resume) with ints := s.ints.setting 0x04 } := rfl

theorem leaves_enterHalted {s : State} {l : LaneId} {x : Lane} (hx : s.lane l = x) (reason : HaltReason)
    (resume : Resume) : Leaves l (x.haltedBy reason resume) 0x04 s (enterHalted s l reason resume) :=
  ⟨onlyLane_enterHalted s l _ _, hx ▸ State.lane_setLane_same s l _, rfl⟩

theorem leaves_enterFaulted {s : State} {l : LaneId} {x : Lane} (hx : s.lane l = x) (h : x.tidy) (f : FaultRecord) :
    Leaves l (x.faultedWith f) 0x02 s (enterFaulted s l f) := by
  have hr := leaves_releaseAll hx h
  refine ⟨onlyLane_enterFaulted s l f, ?_, ?_⟩
  · rw [enterFaulted, State.lane_setInt, State.lane_updLane_same, hr.lane]
    rfl
  · calc (enterFaulted s l f).ints = (releaseAll s l).ints.setting 0x02 := rfl
      _ = s.ints.setting 0x02 := by simp [hr.ints]

/-! ### Completion of a record -/

/-- A taken LINK leaves the lane at its target (R7, R90). -/
theorem leaves_takeLink {s : State} {l : LaneId} {x : Lane} (hx : s.lane l = x) (target : LAddr) :
    Leaves l (x.landed target) 0 s (takeLink s l target).1 := by
  have hdrop := leaves_dropCopy hx
  have hmove := hdrop.quiet (leaves_updLane hdrop.lane fun x =>
    { x with phase := .load, progress := { x.progress with pointer := target } })
  exact hmove.quiet (leaves_retarget hmove.lane .walk target.page)

theorem takeLink_queue (s : State) (l : LaneId) (target : LAddr) :
    (takeLink s l target).1.map.queue = s.map.queue ++ (s.lane l).walk.appended l .walk target.page := by
  rw [takeLink, retarget_queue, State.lane_updLane_same, (leaves_dropCopy rfl).lane]
  simp [Lane.cursor]

/-- A completion with an advance is a jump to the next record; at 0x7FFC it is a RANGE fault (R16). -/
theorem completeAdvance_next {s : State} {l : LaneId} (h : (s.lane l).progress.pointer ≠ 0x7FFC) :
    completeAdvance s l = takeLink s l ((s.lane l).progress.pointer + 4) := by
  have hp : ((dropCopy s l).lane l).progress.pointer = (s.lane l).progress.pointer := by
    rw [(leaves_dropCopy rfl).lane]
  have hne : ¬ (s.lane l).progress.pointer = Config.lastRecord := h
  simp [completeAdvance, takeLink, hp, hne]

theorem completeAdvance_last {s : State} {l : LaneId} (h : (s.lane l).progress.pointer = 0x7FFC) :
    completeAdvance s l =
      ((dropCopy s l).updLane l fun x => { x with phase := .load }, .fault ⟨.range, 0x7FFC, 0x7FFC, .walk, 0⟩) := by
  have hp : ((dropCopy s l).lane l).progress.pointer = (s.lane l).progress.pointer := by
    rw [(leaves_dropCopy rfl).lane]
  have heq : (s.lane l).progress.pointer = Config.lastRecord := h
  simp only [completeAdvance, State.lane_updLane_same, hp, if_pos heq]
  rfl

theorem leaves_stranded {s : State} {l : LaneId} {x : Lane} (hx : s.lane l = x) :
    Leaves l x.stranded 0 s ((dropCopy s l).updLane l fun x => { x with phase := .load }) := by
  have hdrop := leaves_dropCopy hx
  exact hdrop.quiet (leaves_updLane hdrop.lane fun x => { x with phase := .load })

/-- What a completed record's verdict makes of the lane, with the STEP value that counts (R36, R25). -/
theorem leaves_applyVerdict_completed {s : State} {l : LaneId} {x : Lane} (hx : s.lane l = x) (step : Bool) :
    Leaves l (if step then x.haltedBy .step .active else x.enterActive) (if step then 0x04 else 0) s
      (applyVerdict s l step .completed) := by
  cases step
  · exact leaves_settle_empty hx
  · exact leaves_enterHalted hx .step .active

/-! ### A sound lookup unit, cursor by cursor -/

/-- The state with another map unit. -/
def State.withMap (s : State) (m : MapUnit) : State := { s with map := m }

@[simp] theorem State.withMap_map (s : State) (m : MapUnit) : (s.withMap m).map = m := rfl
@[simp] theorem State.withMap_lane (s : State) (m : MapUnit) (l : LaneId) : (s.withMap m).lane l = s.lane l := rfl
@[simp] theorem State.withMap_withMap (s : State) (m n : MapUnit) : (s.withMap m).withMap n = s.withMap n := rfl
@[simp] theorem State.withMap_setLane (s : State) (m : MapUnit) (l : LaneId) (x : Lane) :
    (s.withMap m).setLane l x = (s.setLane l x).withMap m := rfl

/-- The lookup unit is sound for one cursor (R104, R106, R107). -/
structure State.CursorSound (s : State) (l : LaneId) (r : Role) : Prop where
  queued : (l, r) ∈ s.map.queue → ((s.lane l).cursor r).status = .pending
  lookedUp : ((s.lane l).cursor r).status = .inFlight ↔
    ∃ k, s.map.lookup = some k ∧ k.disposition ≠ .abandoned ∧ k.lane = l ∧ k.role = r
  unset : ((s.lane l).cursor r).status = .unset → ((s.lane l).cursor r).page = 0

theorem State.lookupsSound.cursorSound {s : State} (h : s.lookupsSound) (l : LaneId) (r : Role) : s.CursorSound l r := by
  obtain ⟨-, hqueue, hlookup, -, hunset, -⟩ := h
  exact ⟨(hqueue l r).mp, hlookup l r, hunset l r⟩

theorem State.lookupsSound.tidy {s : State} (h : s.lookupsSound) (l : LaneId) : (s.lane l).tidy :=
  fun r => (h.cursorSound l r).unset

/-- Soundness for a cursor reads the lookup unit and that cursor only. -/
theorem State.CursorSound.congr {s t : State} {l : LaneId} {r : Role} (h : s.CursorSound l r) (hmap : t.map = s.map)
    (hcursor : (t.lane l).cursor r = (s.lane l).cursor r) : t.CursorSound l r := by
  constructor
  · rw [hmap, hcursor]
    exact h.queued
  · rw [hmap, hcursor]
    exact h.lookedUp
  · rw [hcursor]
    exact h.unset

/-- The lookup unit after the release of one cursor (R106, R107). -/
def MapUnit.withoutCursor (m : MapUnit) (l : LaneId) (r : Role) : MapUnit :=
  { m with
    queue := m.queue.filter fun q => q != (l, r)
    lookup := m.lookup.map fun k => if k.lane = l ∧ k.role = r then { k with disposition := .abandoned } else k }

/-- The release of all four cursors of a lane is their release one by one. -/
theorem MapUnit.without_eq (m : MapUnit) (l : LaneId) :
    m.without l =
      (((m.withoutCursor l .walk).withoutCursor l .hop).withoutCursor l .src).withoutCursor l .dst := by
  have hqueue : ∀ q : LaneId × Role,
      (q.1 != l) = (q != (l, .dst) && (q != (l, .src) && (q != (l, .hop) && q != (l, .walk)))) := by
    rintro ⟨k, r⟩
    rw [Bool.eq_iff_iff]
    by_cases e : k = l <;> cases r <;> simp [e]
  simp only [MapUnit.without, MapUnit.withoutCursor, List.filter_filter, hqueue, Option.map_map]
  congr 1
  refine congrArg (fun f => Option.map f m.lookup) (funext fun k => ?_)
  obtain ⟨lane, role, page, disposition⟩ := k
  by_cases e : lane = l <;> cases role <;> simp [e]

/-- The state after the release of one cursor under a sound lookup unit (R106). -/
def State.unsetCursor (s : State) (l : LaneId) (r : Role) : State :=
  (s.setLane l ((s.lane l).setCursor r .unset)).withMap (s.map.withoutCursor l r)

/-- A cursor that is not PENDING is not in the queue, and its removal leaves the queue. -/
theorem State.CursorSound.filter_queue {s : State} {l : LaneId} {r : Role} (h : s.CursorSound l r)
    (e : ((s.lane l).cursor r).status ≠ .pending) : (s.map.queue.filter fun q => q != (l, r)) = s.map.queue := by
  refine List.filter_eq_self.mpr fun q hq => ?_
  have : q ≠ (l, r) := fun eq => e (h.queued (eq ▸ hq))
  simpa using this

/-- A cursor that is not IN_FLIGHT has no lookup but an abandoned one, and abandoning it leaves the lookup. -/
theorem State.CursorSound.map_lookup {s : State} {l : LaneId} {r : Role} (h : s.CursorSound l r)
    (e : ((s.lane l).cursor r).status ≠ .inFlight) :
    (s.map.lookup.map fun k =>
      if k.lane = l ∧ k.role = r then { k with disposition := .abandoned } else k) = s.map.lookup := by
  cases hk : s.map.lookup with
  | none => rfl
  | some k =>
    simp only [Option.map_some, Option.some.injEq]
    split
    · next hown =>
      have hab : k.disposition = .abandoned := by
        by_contra hne
        exact e (h.lookedUp.mpr ⟨k, hk, hne, hown.1, hown.2⟩)
      rw [← hab]
    · rfl

/-- A release under a sound lookup unit: the cursor becomes UNSET, its request is removed, its lookup abandoned (R106). -/
theorem release_eq {s : State} {l : LaneId} {r : Role} (h : s.CursorSound l r) :
    release s l r = s.unsetCursor l r := by
  have hqueue := h.filter_queue
  have hlookup := h.map_lookup
  unfold release State.unsetCursor MapUnit.withoutCursor
  cases e : ((s.lane l).cursor r).status with
  | unset =>
    rw [hqueue (by simp [e]), hlookup (by simp [e]), ← Cursor.eq_unset e (h.unset e), Lane.setCursor_self, State.setLane_self]
    rfl
  | pending =>
    rw [hlookup (by simp [e])]
    rfl
  | inFlight =>
    rw [hqueue (by simp [e])]
    obtain ⟨k, hk, -, hlane, hrole⟩ := h.lookedUp.mp e
    simp [State.abandonLookup, State.updLane, State.withMap, hk, hlane, hrole]
  | mapped t =>
    rw [hqueue (by simp [e]), hlookup (by simp [e])]
    rfl

/-- A release keeps the unit sound for the lane's other cursors. -/
theorem State.CursorSound.afterRelease {s : State} {l : LaneId} {r q : Role} (h : s.CursorSound l q) (hne : q ≠ r) :
    (s.unsetCursor l r).CursorSound l q := by
  have hcursor : ((s.unsetCursor l r).lane l).cursor q = (s.lane l).cursor q := by
    rw [State.unsetCursor, State.withMap_lane, State.lane_setLane_same, Lane.cursor_setCursor_other _ _ hne]
  constructor
  · intro hmem
    rw [hcursor]
    exact h.queued (List.mem_filter.mp hmem).1
  · rw [hcursor, h.lookedUp]
    simp only [State.unsetCursor, State.withMap_map, MapUnit.withoutCursor]
    cases s.map.lookup with
    | none => simp
    | some k =>
      by_cases hown : k.lane = l ∧ k.role = r
      · simp [hown, hne.symm]
      · simp [hown]
  · rw [hcursor]
    exact h.unset

/-- The release of all four cursors of a lane under a sound lookup unit (R106, R107). -/
theorem releaseAll_eq {s : State} {l : LaneId} (h : ∀ r, s.CursorSound l r) :
    releaseAll s l = (s.setLane l (s.lane l).uncursored).withMap (s.map.without l) := by
  have hhop := (h .hop).afterRelease (r := .walk) (by simp)
  have hsrc := ((h .src).afterRelease (r := .walk) (by simp)).afterRelease (r := .hop) (by simp)
  have hdst := (((h .dst).afterRelease (r := .walk) (by simp)).afterRelease (r := .hop) (by simp)).afterRelease
    (r := .src) (by simp)
  calc releaseAll s l = release (release (release (release s l .walk) l .hop) l .src) l .dst := rfl
    _ = (((s.unsetCursor l .walk).unsetCursor l .hop).unsetCursor l .src).unsetCursor l .dst := by
      rw [release_eq (h .walk), release_eq hhop, release_eq hsrc, release_eq hdst]
    _ = (s.setLane l (s.lane l).uncursored).withMap (s.map.without l) := by
      simp [State.unsetCursor, MapUnit.without_eq, Lane.uncursored, Lane.setCursor]

/-- Entry to FAULTED under a sound lookup unit, in full (R41). -/
theorem enterFaulted_eq {s : State} {l : LaneId} (h : ∀ r, s.CursorSound l r) (f : FaultRecord) :
    enterFaulted s l f =
      { s.setLane l ((s.lane l).faultedWith f) with map := s.map.without l, ints := s.ints.setting 0x02 } := by
  simp only [enterFaulted, releaseAll_eq h, State.updLane, State.withMap_lane, State.withMap_setLane,
    State.lane_setLane_same, State.setLane_setLane]
  rfl

end Sys2Proof.Machine
end

section
/-! SUPPORT. The end of a beat with nothing deferred: the state its results are taken in, and what each result makes of the
beat's lane once the verdict is taken. -/

namespace Sys2Proof.Machine

/-! ### The beat end as results and verdict -/

/-- The state in which a beat's results are taken: the beat is over and the lane has taken its progress (R72, R73). -/
def State.taken (s : State) (b : Beat) : State := takeProgress { s with beat := none } b

/-- The beat's results with their verdict, counted and taken, with nothing deferred (R72 step 5, R34). -/
def concludeBeat (result : State × Verdict) (l : LaneId) (step : Bool) : State :=
  applyVerdict (countBeat result.1 l) l step result.2

/-- A beat end with nothing deferred takes the beat's results and its verdict (R72). -/
theorem exec_beatEnd {s : State} {b : Beat} (h : BeatEnds s b) :
    exec .beatEnd s = .next (concludeBeat (beatResult (s.taken b) b.lane b.work) b.lane b.step) := by
  obtain ⟨hpin, hbeat, hover, hdeferred⟩ := h
  have hexec : exec .beatEnd s = .next (unlessReset s beatEnd) := rfl
  rw [hexec, unlessReset_run hpin]
  simp only [beatEnd, hbeat, hover, if_true, hdeferred, takeDeferred]
  rfl

theorem State.taken_eq (s : State) (b : Beat) :
    s.taken b = { s.setLane b.lane { s.lane b.lane with progress := b.progress } with
      beat := none
      window := { s.window with recordIndex := s.window.indexAfter b.lane b.work.isLoad } } := by
  unfold State.taken takeProgress touchCopy Window.indexAfter
  cases b.work.isLoad
  · simp
    rfl
  · by_cases e : s.window.laneSelect = b.lane
    · simp [e]
      rfl
    · simp [e]
      rfl

@[simp] theorem State.taken_map (s : State) (b : Beat) : (s.taken b).map = s.map := by rw [State.taken_eq]; rfl
@[simp] theorem State.taken_ints (s : State) (b : Beat) : (s.taken b).ints = s.ints := by rw [State.taken_eq]; rfl
@[simp] theorem State.taken_queue (s : State) (b : Beat) : (s.taken b).queue = s.queue := by rw [State.taken_eq]; rfl
@[simp] theorem State.taken_wheel (s : State) (b : Beat) : (s.taken b).wheel = s.wheel := by rw [State.taken_eq]; rfl
@[simp] theorem State.taken_signals (s : State) (b : Beat) : (s.taken b).signals = s.signals := by
  rw [State.taken_eq]; rfl

/-- The beat's lane has taken the beat's progress, and nothing else but the beat and the read index has changed. -/
theorem leaves_taken (s : State) (b : Beat) :
    Leaves b.lane { s.lane b.lane with progress := b.progress } 0 { s with beat := none } (s.taken b) := by
  rw [State.taken_eq]
  exact ⟨⟨fun k hk => State.lane_setLane_other s _ hk, rfl, rfl, rfl, rfl, rfl, rfl, rfl, rfl, rfl, rfl, rfl, rfl⟩,
    State.lane_setLane_same s b.lane _, (Interrupts.setting_zero _).symm⟩

@[simp] theorem State.taken_lane (s : State) (b : Beat) :
    (s.taken b).lane b.lane = { s.lane b.lane with progress := b.progress } := (leaves_taken s b).lane

theorem State.taken_setLane (s : State) (b : Beat) (x : Lane) :
    (s.taken b).setLane b.lane x = { s.setLane b.lane x with
      beat := none
      window := { s.window with recordIndex := s.window.indexAfter b.lane b.work.isLoad } } := by
  rw [State.taken_eq]
  simp [State.setLane]

/-- A sound lookup unit is sound in the state the results are taken in, and once the beat is counted. -/
theorem State.lookupsSound.counted {s : State} (h : s.lookupsSound) (b : Beat) (r : Role) :
    (countBeat (s.taken b) b.lane).CursorSound b.lane r := by
  refine (h.cursorSound b.lane r).congr (s.taken_map b) ?_
  rw [(leaves_countBeat (s.taken_lane b)).lane]
  cases r <;> rfl

/-! ### What a LOAD or a DISPATCH beat results in -/

theorem beatResult_load {s : State} {b : Beat} {r : RecordCopy} (hload : b.work.isLoad = true)
    (hcopy : b.progress.current = some r) :
    beatResult (s.taken b) b.lane b.work = loadResult (s.taken b) b.lane r := by
  cases hwork : b.work with
  | load walk words => simp [beatResult, hcopy]
  | dispatch => simp [hwork, BeatWork.isLoad] at hload
  | resolve hop cell => simp [hwork, BeatWork.isLoad] at hload
  | transfer src dst moved held stop => simp [hwork, BeatWork.isLoad] at hload
  | finish => simp [hwork, BeatWork.isLoad] at hload

theorem beatResult_dispatches {s : State} {b : Beat} {r : RecordCopy} (h : b.dispatches r) :
    beatResult (s.taken b) b.lane b.work = dispatchRecord (s.taken b) b.lane r := by
  obtain ⟨hcopy, hwork | ⟨hload, -, hvalid, hbreak⟩⟩ := h
  · simp [beatResult, hwork, hcopy]
  · rw [beatResult_load hload hcopy]
    simp [loadResult, hvalid, hbreak]

/-! ### Verdicts after the count -/

/-- A lane at its target goes on or halts under STEP (R36, R25). -/
theorem Leaves.jump {l : LaneId} {x : Lane} {target : LAddr} {s u : State} (h : Leaves l (x.landed target) 0 s u)
    (step : Bool) :
    Leaves l (x.jumped target step) (if step then 0x04 else 0) s (applyVerdict u l step .completed) :=
  h.after (leaves_applyVerdict_completed h.lane step)

/-- A lane that has met a fault enters FAULTED (R41). -/
theorem Leaves.fault {l : LaneId} {x : Lane} {s u : State} (h : Leaves l x 0 s u) (hx : x.tidy) (step : Bool)
    (f : FaultRecord) : Leaves l (x.faultedWith f) 0x02 s (applyVerdict u l step (.fault f)) :=
  h.after (leaves_enterFaulted h.lane hx f)

theorem completionInts_last {p : LAddr} (h : p = 0x7FFC) (step : Bool) : completionInts p step = 0x02 := if_pos h

theorem completionInts_next {p : LAddr} (h : p ≠ 0x7FFC) (step : Bool) :
    completionInts p step = if step then 0x04 else 0 := if_neg h

theorem leaves_conclude_takeLink {s : State} {l : LaneId} {x : Lane} (hx : s.lane l = x) (target : LAddr)
    (step : Bool) :
    Leaves l (x.counted.jumped target step) (if step then 0x04 else 0) s
      (concludeBeat (takeLink s l target) l step) := by
  have hlink := leaves_takeLink hx target
  exact Leaves.jump (x := x.counted) (hlink.quiet (leaves_countBeat hlink.lane)) step

/-- A record that completes with an advance at the end of its beat (R16, R36, R90). -/
theorem leaves_conclude_completeAdvance {s : State} {l : LaneId} {x : Lane} (hx : s.lane l = x) (h : x.tidy)
    (step : Bool) :
    Leaves l (x.counted.completed step) (completionInts x.progress.pointer step) s
      (concludeBeat (completeAdvance s l) l step) := by
  subst hx
  by_cases e : (s.lane l).progress.pointer = 0x7FFC
  · rw [completeAdvance_last e, completionInts_last e, Lane.completed_last (x := (s.lane l).counted) e]
    have hdrop := leaves_stranded (s := s) (l := l) rfl
    exact Leaves.fault (x := (s.lane l).counted.stranded) (hdrop.quiet (leaves_countBeat hdrop.lane)) h step _
  · rw [completeAdvance_next e, completionInts_next e, Lane.completed_next (x := (s.lane l).counted) e]
    exact leaves_conclude_takeLink rfl _ step

/-- A WAIT that completes outside a beat (R125). -/
theorem leaves_completeWait {s : State} {l : LaneId} (h : (s.lane l).tidy) :
    Leaves l (s.lane l).afterWait (completionInts (s.lane l).progress.pointer (s.lane l).config.step) s
      (completeWait s l) := by
  have hended := leaves_updLane (s := s) (l := l) rfl fun x => { x with wait := none }
  have hpointer : ((s.updLane l fun x => { x with wait := none }).lane l).progress.pointer =
      (s.lane l).progress.pointer := by rw [hended.lane]
  have hstep : ((s.updLane l fun x => { x with wait := none }).lane l).config.step = (s.lane l).config.step := by
    rw [hended.lane]
  unfold completeWait Lane.afterWait
  simp only [hstep]
  by_cases e : (s.lane l).progress.pointer = 0x7FFC
  · rw [completeAdvance_last (hpointer.trans e), completionInts_last e,
      Lane.completed_last (x := { s.lane l with wait := none }) e]
    exact (hended.quiet (leaves_stranded hended.lane)).fault h _ _
  · rw [completeAdvance_next (fun e' => e (hpointer.symm.trans e')), completionInts_next e,
      Lane.completed_next (x := { s.lane l with wait := none }) e, hpointer]
    exact (hended.quiet (leaves_takeLink hended.lane _)).jump _

/-- The verdict of a completed record leaves the map unit. -/
theorem applyVerdict_completed_map (s : State) (l : LaneId) (step : Bool) :
    (applyVerdict s l step .completed).map = s.map := by
  cases step <;> rfl

theorem conclude_takeLink_queue {s : State} {l : LaneId} {x : Lane} (hx : s.lane l = x) (target : LAddr)
    (step : Bool) :
    (concludeBeat (takeLink s l target) l step).map.queue = s.map.queue ++ x.walk.appended l .walk target.page := by
  rw [← hx, ← takeLink_queue]
  exact congrArg MapUnit.queue (applyVerdict_completed_map (countBeat (takeLink s l target).1 l) l step)

/-- A resolution that begins (R76, R94, R25). -/
theorem leaves_conclude_beginResolution {s : State} {l : LaneId} {x : Lane} (hx : s.lane l = x)
    (target : ResolveTarget) (cell : LAddr) (step : Bool) :
    Leaves l (x.counted.resolving target cell) 0 s (concludeBeat (beginResolution s l target cell) l step) := by
  unfold concludeBeat beginResolution
  have hphase := leaves_updLane hx fun x =>
    let p : Progress := { x.progress with resolveTarget := target, hopCount := 0 }
    { x with
      phase := .resolve
      progress := match target with
        | .dst => { p with resolvedDestination := cell }
        | _ => { p with resolvedSource := cell } }
  have hhop := hphase.quiet (leaves_retarget hphase.lane .hop cell.page)
  have hcount := hhop.quiet (leaves_countBeat hhop.lane)
  have hwait := hcount.quiet (leaves_updLane hcount.lane fun x => { x with portWait := none })
  have hsettle := hwait.quiet (leaves_settle_empty hwait.lane)
  cases target <;> exact hsettle

theorem conclude_beginResolution_queue {s : State} {l : LaneId} {x : Lane} (hx : s.lane l = x)
    (target : ResolveTarget) (cell : LAddr) (step : Bool) :
    (concludeBeat (beginResolution s l target cell) l step).map.queue =
      s.map.queue ++ x.hop.appended l .hop cell.page := by
  subst hx
  calc _ = (beginResolution s l target cell).1.map.queue := rfl
    _ = _ := by
      rw [beginResolution, retarget_queue, State.lane_updLane_same]
      cases target <;> rfl

/-- A push that met a full queue leaves the lane BLOCKED on QUEUE, and nothing else changed (R133, R25). -/
theorem conclude_takePendingPost (s : State) (l : LaneId) (kind : EntryKind) (tag : Half) (step : Bool) :
    concludeBeat (takePendingPost s l kind tag) l step =
      s.setLane l ((s.lane l).counted.heldOnQueue kind tag) := by
  simp only [concludeBeat, takePendingPost, Verdict.onQueue, applyVerdict, settle, countBeat, State.updLane,
    State.lane_setLane_same, State.setLane_setLane]
  rfl

/-- A WAIT that waits (R78, R22). -/
theorem conclude_waiting (s : State) (l : LaneId) (w : Wait) (step : Bool) :
    concludeBeat (s.updLane l fun x => { x with phase := .load }, .waiting w) l step =
      s.setLane l { (s.lane l).counted with
        state := .waiting, phase := .load, reasons := ⟨false, false, false⟩, credit := 0, wait := some w } := by
  simp only [concludeBeat, applyVerdict, countBeat, State.updLane, State.lane_setLane_same, State.setLane_setLane]
  rfl

/-- A STOP that completes leaves the lane IDLE (R14). -/
theorem leaves_enterIdleAtStop {s : State} {l : LaneId} {x : Lane} (hx : s.lane l = x) (h : x.tidy) :
    Leaves l x.stopped 0 s (enterIdleAtStop s l) := by
  have hdrop := leaves_dropCopy hx
  have hrelease := hdrop.quiet (leaves_releaseAll hdrop.lane h)
  exact hrelease.quiet (leaves_updLane hrelease.lane fun x =>
    { x with
      state := .idle, reasons := .empty, portWait := none, phase := .load, repeatRecord := none
      pendingPost := none, wait := none, credit := 0 })

theorem enterIdleAtStop_map {s : State} {l : LaneId} (h : ∀ r, s.CursorSound l r) :
    (enterIdleAtStop s l).map = s.map.without l := by
  have hdrop : ∀ r, (dropCopy s l).CursorSound l r := fun r => by
    refine (h r).congr (dropCopy_map s l) ?_
    rw [(leaves_dropCopy rfl).lane]
    cases r <;> rfl
  calc (enterIdleAtStop s l).map = (releaseAll (dropCopy s l) l).map := rfl
    _ = s.map.without l := by rw [releaseAll_eq hdrop, State.withMap_map, dropCopy_map]

/-! ### Pushes -/

/-- The state after a push that is made (R132). -/
def State.pushed (s : State) (l : LaneId) (kind : EntryKind) (tag : Half) : State :=
  { s with
    queue := s.queueWith (s.entryFor l kind tag (s.lane l).progress.pointer), ints := s.ints.setting s.pushInts }

/-- A push is made while the queue has room (R132). -/
theorem push_eq {s : State} {l : LaneId} {kind : EntryKind} {tag : Half} (h : s.queue.entries.length < 32) :
    push s l kind tag = some (s.pushed l kind tag) := by
  obtain ⟨t, hpush, hframe, hqueue, hints⟩ := push_room (l := l) (k := kind) (tag := tag) h
  have hmask : t.ints = s.ints.setting s.pushInts := by
    rw [hints, State.pushInts, State.pushSetsQueue, Interrupts.setting]
    by_cases e : s.queue.thresholdField.toNat + 1 ≤ s.queue.entries.length + 1 <;> simp [e]
  rw [hpush, hframe, hqueue, hmask]
  rfl

/-- The beat's lane and INT_STATUS after a push among the beat's results (R132, R138). -/
theorem leaves_taken_pushed (s : State) (b : Beat) (kind : EntryKind) (tag : Half) :
    Leaves b.lane { s.lane b.lane with progress := b.progress } s.pushInts
      { s with beat := none, queue := s.queueWith (s.entryFor b.lane kind tag b.progress.pointer) }
      ((s.taken b).pushed b.lane kind tag) := by
  have hq : ((s.taken b).pushed b.lane kind tag).queue =
      s.queueWith (s.entryFor b.lane kind tag b.progress.pointer) := by
    simp [State.pushed, State.queueWith, State.entryFor]
  have hi : ((s.taken b).pushed b.lane kind tag).ints = s.ints.setting s.pushInts := by
    simp [State.pushed, State.pushInts, State.pushSetsQueue]
  have h := leaves_taken s b
  exact ⟨⟨h.others, h.beat, h.wheel, h.entries, h.signals, hq, by rw [hi]; rfl, h.ports, h.mem, h.window, h.clearing,
    h.resetPin, h.pending⟩, h.lane, hi⟩

/-! ### What a beat end leaves, in the words of the statements -/

/-- The beat end that changes one lane from a state with the signals `g` and the queue `q`. -/
theorem Leaves.atBeatEnd {l : LaneId} {x : Lane} {mask : BitVec 8} {s t : State} {g : Half} {q : CompletionQueue}
    (h : Leaves l x mask { s with beat := none, signals := g, queue := q } t) :
    t.signals = g ∧ t.queue = q ∧ t.lane l = x ∧ OtherLanesKept s t l ∧ t.map.entries = s.map.entries ∧
      t.ints = s.ints.setting mask ∧
      t = { s with
        beat := none, lanes := t.lanes, map := t.map, signals := t.signals, queue := t.queue, ints := t.ints
        window := t.window } := by
  refine ⟨h.signals, h.queue, h.lane, h.others, h.entries, h.ints, ?_⟩
  rw [h.signals, h.queue]
  exact h.frame

/-- The beat end that changes one lane, its lookups and INT_STATUS. -/
theorem Leaves.atLaneEnd {l : LaneId} {x : Lane} {mask : BitVec 8} {s t : State}
    (h : Leaves l x mask { s with beat := none } t) :
    t.lane l = x ∧ OtherLanesKept s t l ∧ t.map.entries = s.map.entries ∧ t.ints = s.ints.setting mask ∧
      t = { s with beat := none, lanes := t.lanes, map := t.map, ints := t.ints, window := t.window } :=
  ⟨h.lane, h.others, h.entries, h.ints, h.frame⟩

/-- The beat end that changes one lane and its lookups and sets no interrupt bit. -/
theorem Leaves.atQuietEnd {l : LaneId} {x : Lane} {s t : State} (h : Leaves l x 0 { s with beat := none } t) :
    t.lane l = x ∧ OtherLanesKept s t l ∧ t.map.entries = s.map.entries ∧
      t = { s with beat := none, lanes := t.lanes, map := t.map, window := t.window } := by
  obtain ⟨hlane, hothers, hentries, hints, hframe⟩ := h.atLaneEnd
  have hkept : t.ints = s.ints := hints.trans (Interrupts.setting_zero _)
  rw [hkept] at hframe
  exact ⟨hlane, hothers, hentries, hframe⟩

/-- The beat end that replaces the context of the beat's lane and changes nothing else but the beat and the read index. -/
theorem runs_taken_setLane {s : State} {b : Beat} {x : Lane}
    (h : exec .beatEnd s = .next ((s.taken b).setLane b.lane x)) :
    Runs .beatEnd s fun t =>
      t.lane b.lane = x ∧ OtherLanesKept s t b.lane ∧
        t = { s with beat := none, lanes := t.lanes, window := t.window } := by
  refine ⟨_, h, State.lane_setLane_same _ _ _, fun k hk => ?_, ?_⟩
  · rw [State.lane_setLane_other _ _ hk]
    exact (leaves_taken s b).others k hk
  · rw [State.taken_setLane]
    rfl

end Sys2Proof.Machine
end

section
/-! SUPPORT. A set of signals wakes the same lanes alike whatever one lane that does not wait holds. -/

namespace Sys2Proof.Machine

/-! ### Set commands -/

/-- SIGNAL_SET outside RESET sets its mask (R121). -/
theorem exec_signalSet {s : State} (h : s.resetPin = false) (mask : Half) :
    exec (.signalSet mask) s = .next (setSignals s mask) := by
  have hexec : exec (.signalSet mask) s = .next (unlessReset s fun s => setSignals s mask) := rfl
  rw [hexec, unlessReset_run h]

/-- A fold that acts at one member only acts once. -/
theorem foldl_at_member {σ α : Type} [DecidableEq α] (f : σ → σ) (a : α) :
    ∀ (as : List α) (s : σ), as.Nodup → as.foldl (fun s x => if x = a then f s else s) s = if a ∈ as then f s else s
  | [], s, _ => rfl
  | x :: as, s, h => by
    obtain ⟨hx, has⟩ := List.nodup_cons.mp h
    rw [List.foldl_cons, foldl_at_member f a as _ has]
    by_cases e : x = a
    · subst e
      simp [hx]
    · simp [e, Ne.symm e]

theorem mem_allSignals (n : SignalId) : n ∈ allSignals := by
  revert n
  decide

/-- The set of one signal's mask is the set of that signal (R121). -/
theorem setSignals_twoPow (s : State) (n : SignalId) : setSignals s (BitVec.twoPow 16 n.val) = setSignal s n := by
  have hbit : ∀ m : SignalId, (BitVec.twoPow 16 n.val).getLsbD m.val = decide (m = n) := fun m => by
    simp [Fin.ext_iff]
  have hstep : (fun (s : State) (m : SignalId) => if (BitVec.twoPow 16 n.val).getLsbD m.val then setSignal s m else s) =
      fun s m => if m = n then setSignal s n else s := by
    funext s m
    rw [hbit]
    by_cases e : m = n <;> simp [e]
  rw [setSignals, hstep, foldl_at_member (fun s => setSignal s n) n allSignals s (by decide), if_pos (mem_allSignals n)]

/-- A set of signals touches no lane that does not wait. -/
theorem onlyLanes_setSignal_awake {s : State} {l : LaneId} (h : (s.lane l).state ≠ .waiting) (n : SignalId) :
    OnlyLanes (· ≠ l) s (setSignal s n) := by
  have hset := onlyLanes_setSignal s n
  refine { hset with others := fun k hk => hset.others k fun hwaits => ?_ }
  obtain rfl : k = l := not_not.mp hk
  exact h (waiter_waiting hwaits)

theorem OnlyLanes.lane_kept {l : LaneId} {s t : State} (h : OnlyLanes (· ≠ l) s t) : t.lane l = s.lane l :=
  h.others l fun e => e rfl

theorem onlyLanes_setSignals_awake {l : LaneId} (mask : Half) {s : State} (h : (s.lane l).state ≠ .waiting) :
    OnlyLanes (· ≠ l) s (setSignals s mask) := by
  unfold setSignals
  induction allSignals generalizing s with
  | nil => exact .refl _ s
  | cons n ns ih =>
    have hset : OnlyLanes (· ≠ l) s (if mask.getLsbD n.val then setSignal s n else s) := by
      split
      · exact onlyLanes_setSignal_awake h n
      · exact .refl _ s
    rw [List.foldl_cons]
    exact hset.trans (ih (by rw [hset.lane_kept]; exact h))

/-! ### Two states that wake alike -/

/-- `t` is `s` but for a lane `l` that does not wait, the bits of `mask` set in INT_STATUS, and what no wake reads. -/
structure WakesAlike (l : LaneId) (mask : BitVec 8) (s t : State) : Prop where
  others : ∀ k, k ≠ l → t.lane k = s.lane k
  state : (t.lane l).state = (s.lane l).state
  wait : (t.lane l).wait = (s.lane l).wait
  signals : t.signals = s.signals
  ints : t.ints = s.ints.setting mask
  awake : (s.lane l).state ≠ .waiting
  tidy : ∀ k, (s.lane k).tidy

theorem WakesAlike.isWaiter {l : LaneId} {mask : BitVec 8} {s t : State} (h : WakesAlike l mask s t) :
    isWaiter t = isWaiter s := by
  funext n k
  unfold Machine.isWaiter
  by_cases e : k = l
  · rw [e, h.state, h.wait]
  · rw [h.others k e]

theorem WakesAlike.consumes {l : LaneId} {mask : BitVec 8} {s t : State} (h : WakesAlike l mask s t) :
    consumes t = consumes s := by
  funext k
  unfold Machine.consumes
  by_cases e : k = l
  · rw [e, h.wait]
  · rw [h.others k e]

/-- The wake of one other lane keeps the states alike (R125). -/
theorem WakesAlike.completeWait {l : LaneId} {mask : BitVec 8} {s t : State} (h : WakesAlike l mask s t) {k : LaneId}
    (hk : k ≠ l) : WakesAlike l mask (completeWait s k) (completeWait t k) := by
  have hsame := h.others k hk
  have hs := leaves_completeWait (h.tidy k)
  have ht := leaves_completeWait (s := t) (l := k) (hsame ▸ h.tidy k)
  rw [hsame] at ht
  constructor
  case others =>
    intro j hj
    by_cases e : j = k
    · rw [e, hs.lane, ht.lane]
    · rw [hs.others j e, ht.others j e, h.others j hj]
  case state => rw [hs.others l hk.symm, ht.others l hk.symm, h.state]
  case wait => rw [hs.others l hk.symm, ht.others l hk.symm, h.wait]
  case signals => rw [hs.signals, ht.signals, h.signals]
  case ints => rw [hs.ints, ht.ints, h.ints, Interrupts.setting_setting, Interrupts.setting_setting, BitVec.or_comm]
  case awake =>
    rw [hs.others l hk.symm]
    exact h.awake
  case tidy =>
    intro j
    by_cases e : j = k
    · rw [e, hs.lane]
      exact Lane.tidy_completed (x := { s.lane k with wait := none }) (h.tidy k) _
    · rw [hs.others j e]
      exact h.tidy j

theorem WakesAlike.foldl_completeWait {l : LaneId} {mask : BitVec 8} :
    ∀ (ks : List LaneId) {s t : State}, WakesAlike l mask s t → (∀ k ∈ ks, k ≠ l) →
      WakesAlike l mask (ks.foldl Machine.completeWait s) (ks.foldl Machine.completeWait t)
  | [], _, _, h, _ => h
  | k :: ks, _, _, h, hks =>
    WakesAlike.foldl_completeWait ks (h.completeWait (hks k (by simp))) fun j hj => hks j (by simp [hj])

/-- The set of one signal keeps the states alike (R121, R124). -/
theorem WakesAlike.setSignal {l : LaneId} {mask : BitVec 8} {s t : State} (h : WakesAlike l mask s t) (n : SignalId) :
    WakesAlike l mask (setSignal s n) (setSignal t n) := by
  have hwoken : wokenBy t n = wokenBy s n := by
    unfold wokenBy
    rw [h.isWaiter, h.consumes]
  have hothers : ∀ k ∈ wokenBy s n, k ≠ l := fun k hk e =>
    h.awake (e ▸ waiter_waiting (wokenBy_waiter hk))
  have hset : WakesAlike l mask { s with signals := s.signals ||| BitVec.twoPow 16 n.val }
      { t with signals := t.signals ||| BitVec.twoPow 16 n.val } :=
    ⟨h.others, h.state, h.wait, congrArg (· ||| _) h.signals, h.ints, h.awake, h.tidy⟩
  unfold Machine.setSignal
  dsimp only
  rw [h.signals, hwoken, h.consumes]
  split
  · exact h
  · refine WakesAlike.foldl_completeWait _ ?_ hothers
    split
    · exact h
    · rw [h.signals] at hset
      exact hset

theorem WakesAlike.setSignals {l : LaneId} {bits : BitVec 8} (mask : Half) {s t : State} (h : WakesAlike l bits s t) :
    WakesAlike l bits (setSignals s mask) (setSignals t mask) := by
  unfold Machine.setSignals
  induction allSignals generalizing s t with
  | nil => exact h
  | cons n ns ih =>
    rw [List.foldl_cons, List.foldl_cons]
    refine ih ?_
    split
    · exact h.setSignal n
    · exact h

/-- A state that differs from `s` in a lane that does not wait wakes alike, if the lane keeps its state and its wait. -/
theorem Leaves.wakesAlike {l : LaneId} {x : Lane} {mask : BitVec 8} {s t : State} {q : CompletionQueue}
    (h : Leaves l x mask { s with beat := none, queue := q } t) (hstate : x.state = (s.lane l).state)
    (hwait : x.wait = (s.lane l).wait) (hawake : (s.lane l).state ≠ .waiting) (htidy : ∀ k, (s.lane k).tidy) :
    WakesAlike l mask s t :=
  ⟨h.others, h.lane ▸ hstate, h.lane ▸ hwait, h.signals, h.ints, hawake, htidy⟩

/-- A beat end whose results set signals and then change the beat's lane, compared with the set from before it: `p` is the
state before the set, `v` and `u` what the set leaves of `s` and of `p`, and `t` what the beat end leaves. -/
theorem Leaves.afterWakes {l : LaneId} {x y : Lane} {a c : BitVec 8} {s p v u t : State} {q : CompletionQueue}
    (hp : Leaves l x a { s with beat := none, queue := q } p) (hu : OnlyLanes (· ≠ l) p u) (hv : WakesAlike l a v u)
    (ht : Leaves l y c u t) :
    t.queue = q ∧ t.signals = v.signals ∧ t.lane l = y ∧ OtherLanesKept v t l ∧ t.map.entries = s.map.entries ∧
      t.ints = v.ints.setting (a ||| c) ∧
      t = { s with
        beat := none, lanes := t.lanes, map := t.map, signals := t.signals, queue := t.queue, ints := t.ints
        window := t.window } := by
  refine ⟨ht.queue.trans (hu.queue.trans hp.queue), ht.signals.trans hv.signals, ht.lane, fun k hk => ?_,
    ht.entries.trans (hu.entries.trans hp.entries), ?_, ?_⟩
  · rw [ht.others k hk, hv.others k hk]
  · rw [ht.ints, hv.ints, Interrupts.setting_setting]
  · calc t = { u with lanes := t.lanes, map := t.map, ints := t.ints, window := t.window } := ht.frame
      _ = { p with
            lanes := t.lanes, map := t.map, signals := u.signals, ints := t.ints, window := t.window } := by
          rw [hu.frame]
      _ = { s with
            beat := none, lanes := t.lanes, map := t.map, signals := u.signals, queue := q, ints := t.ints
            window := t.window } := by
          rw [hp.frame]
      _ = _ := by rw [ht.signals, ht.queue, hu.queue, hp.queue]

end Sys2Proof.Machine
end

section
/-! CERTIFICATE. Records (R4): validation, the LOAD beat's end, and the dispatch of a LINK (R73, R74, R76). -/

namespace Sys2Proof.Machine

/-! ### Record fields in the words of the statements -/

theorem Word.low_eq (w : Word) : w.low = w.extractLsb' 0 16 := BitVec.setWidth_eq_extractLsb' (by decide)

theorem RecordCopy.mask_eq (r : RecordCopy) : r.mask = r.word1.extractLsb' 0 16 := Word.low_eq r.word1

theorem RecordCopy.tag_eq (r : RecordCopy) : r.tag = r.word3.extractLsb' 0 16 := Word.low_eq r.word3

theorem RecordCopy.timeout_eq (r : RecordCopy) : r.timeout = (r.word2.extractLsb' 0 16).toNat :=
  congrArg BitVec.toNat (Word.low_eq r.word2)

/-- The logical page of a reference word's address (R2). -/
theorem page_address (w : Word) : LAddr.page (w.extractLsb' 0 15) = w.extractLsb' 8 7 := by
  ext i hi
  simp [LAddr.page]

theorem code_cases (c : BitVec 3) : c = 0 ∨ c = 1 ∨ c = 2 ∨ c = 3 ∨ c = 4 ∨ c = 5 ∨ c = 6 ∨ c = 7 := by
  revert c
  decide

/-- Settles O36, by the eight kind codes in order. -/
theorem recordValidationChecksInOrder : Obligations.RecordValidationChecksInOrder := by
  intro r p
  rcases code_cases (r.word0.extractLsb' 29 3) with h | h | h | h | h | h | h | h
  · simp [RecordCopy.validate, RecordCopy.kind, h]
  · simp [RecordCopy.validate, RecordCopy.kind, h, RecordKind.reserved, RecordCopy.count, refReservedSet]
  · simp [RecordCopy.validate, RecordCopy.kind, h, RecordKind.reserved, refReservedSet, refIndirect, refAddress,
      isAligned4]
  · by_cases e : r.word0 &&& 0x0FFFFFFF#32 = 0#32 <;>
      simp [RecordCopy.validate, RecordCopy.kind, h, RecordKind.reserved, e]
  · simp [RecordCopy.validate, RecordCopy.kind, h, RecordKind.reserved, RecordCopy.mask_eq]
  · simp [RecordCopy.validate, RecordCopy.kind, h, RecordKind.reserved, RecordCopy.mask_eq]
  · by_cases e : r.word0 &&& 0x0DFFFFFF#32 = 0#32 <;>
      simp [RecordCopy.validate, RecordCopy.kind, h, RecordKind.reserved, e]
  · simp [RecordCopy.validate, RecordCopy.kind, h]

/-! ### The end of a LOAD beat -/

/-- Settles O37: the results of the beat are a fault, or a halt at a BREAK, on the lane that has taken the beat. -/
theorem invalidRecordsAndBreaksStopTheLane : Obligations.InvalidRecordsAndBreaksStopTheLane := by
  intro s b r hends hload hcopy hsound
  rw [exec_beatEnd hends, beatResult_load hload hcopy]
  refine ⟨fun cause offending hinvalid => ?_, fun hvalid hbreak => ?_⟩
  · simp only [loadResult, State.taken_lane, hinvalid, concludeBeat, applyVerdict]
    rw [enterFaulted_eq (hsound.counted b), countBeat, State.updLane, State.setLane_setLane, State.taken_setLane,
      hload]
    simp only [State.lane_setLane_same, State.taken_lane, State.setLane_map, State.setLane_ints, State.taken_map,
      State.taken_ints]
    rfl
  · simp only [loadResult, State.taken_lane, hvalid, hbreak, if_true, concludeBeat, applyVerdict, countBeat,
      State.updLane, State.lane_setLane_same, State.setLane_setLane]
    rw [enterHalted_eq, State.lane_setLane_same, State.setLane_setLane, State.taken_setLane, hload]
    simp only [State.setLane_ints, State.taken_ints]
    rfl

/-- The lookup unit after a fault among the results of a beat (R41, R106). -/
theorem enterFaulted_counted_map {s : State} (h : s.lookupsSound) (b : Beat) (f : FaultRecord) :
    (enterFaulted (countBeat (s.taken b) b.lane) b.lane f).map = s.map.without b.lane := by
  rw [enterFaulted_eq (h.counted b)]
  exact congrArg (MapUnit.without · b.lane) (s.taken_map b)

/-! ### Dispatch of a LINK -/

/-! The repeat logic, case by case (R7, R8). -/

theorem linkOutcome_zero {n : Nat} (hn : n = 0) (held : Option RepeatRecord) (pointer : LAddr) :
    linkOutcome held pointer n = .taken held := if_pos hn

theorem linkOutcome_first {n : Nat} (hn : n ≠ 0) (pointer : LAddr) :
    linkOutcome none pointer n = .taken (some ⟨pointer, n⟩) := if_neg hn

theorem linkOutcome_again {n m : Nat} (hn : n ≠ 0) (pointer : LAddr) (hm : 1 < m) :
    linkOutcome (some ⟨pointer, m⟩) pointer n = .taken (some ⟨pointer, m - 1⟩) := by
  simp [linkOutcome, hn, hm]

theorem linkOutcome_done {n m : Nat} (hn : n ≠ 0) (pointer : LAddr) (hm : m ≤ 1) :
    linkOutcome (some ⟨pointer, m⟩) pointer n = .fallThrough := by
  simp [linkOutcome, hn, Nat.not_lt.mpr hm]

theorem linkOutcome_other {n : Nat} (hn : n ≠ 0) {pointer address : LAddr} (m : Nat) (h : address ≠ pointer) :
    linkOutcome (some ⟨address, m⟩) pointer n = .nested address := by
  simp [linkOutcome, hn, h]

/-- A dispatched LINK takes the jump of its outcome. -/
theorem jumpsTo_of_result {s : State} {b : Beat} {target : LAddr} {x : Lane} {u : State}
    (hexec : exec .beatEnd s = .next (concludeBeat (takeLink u b.lane target) b.lane b.step))
    (hu : Leaves b.lane x 0 { s with beat := none } u) (hmap : u.map = s.map) :
    JumpsTo s b x.counted s.map.queue target := by
  have hjump := hu.after (leaves_conclude_takeLink hu.lane target b.step)
  obtain ⟨hlane, hothers, hentries, hints, hframe⟩ := hjump.atLaneEnd
  refine ⟨_, hexec, hlane, hothers, hentries, ?_, ?_, hframe⟩
  · rw [conclude_takeLink_queue hu.lane, hmap]
    rfl
  · rw [hints]
    cases b.step <;> simp

/-- The results of a LINK of a direct target by the outcome of the repeat logic, on the state `u` (R8, R9, R76). -/
def linkResult (u : State) (l : LaneId) (target : LAddr) : LinkOutcome → State × Verdict
  | .taken rr => takeLink (u.updLane l fun x => { x with repeatRecord := rr }) l target
  | .fallThrough => completeAdvance (u.updLane l fun x => { x with repeatRecord := none }) l
  | .nested address => (u, .fault ⟨.nestedRepeat, (u.lane l).progress.pointer, address, .walk, 0⟩)

/-- A LINK of a direct target is acted on at its dispatch (R76). -/
theorem dispatchLink_direct {r : RecordCopy} (h : r.word1.getLsbD 31 = false) (u : State) (l : LaneId) :
    dispatchLink u l r = linkResult u l (r.word1.extractLsb' 0 15)
      (linkOutcome (u.lane l).repeatRecord (u.lane l).progress.pointer r.repeatCount) := by
  simp only [dispatchLink, refIndirect, h, actLink, refAddress, id, ite_self, Bool.false_eq_true, if_false]
  cases linkOutcome (u.lane l).repeatRecord (u.lane l).progress.pointer r.repeatCount <;> rfl

/-- The beat end that dispatches a LINK of a direct target, by the outcome of the repeat logic. -/
theorem exec_directLink {s : State} {b : Beat} {r : RecordCopy} {outcome : LinkOutcome} (hends : BeatEnds s b)
    (hdispatch : b.dispatches r) (hkind : r.kind = some .link) (hdirect : r.word1.getLsbD 31 = false)
    (houtcome : linkOutcome (s.lane b.lane).repeatRecord b.progress.pointer r.repeatCount = outcome) :
    exec .beatEnd s =
      .next (concludeBeat (linkResult (s.taken b) b.lane (r.word1.extractLsb' 0 15) outcome) b.lane b.step) := by
  rw [exec_beatEnd hends, beatResult_dispatches hdispatch, dispatchRecord, hkind]
  simp only [dispatchLink_direct hdirect, State.taken_lane, houtcome]

/-- The beat's lane once the repeat logic has set its repeat record. -/
theorem leaves_taken_repeat (s : State) (b : Beat) (rr : Option RepeatRecord) :
    Leaves b.lane { s.lane b.lane with progress := b.progress, repeatRecord := rr } 0 { s with beat := none }
      ((s.taken b).updLane b.lane fun x => { x with repeatRecord := rr }) :=
  (leaves_taken s b).quiet (leaves_updLane (s.taken_lane b) fun x => { x with repeatRecord := rr })

/-- A LINK whose outcome is a jump (R7, R8). -/
theorem link_jumps {s : State} {b : Beat} {r : RecordCopy} {rr : Option RepeatRecord} (hends : BeatEnds s b)
    (hdispatch : b.dispatches r) (hkind : r.kind = some .link) (hdirect : r.word1.getLsbD 31 = false)
    (houtcome : linkOutcome (s.lane b.lane).repeatRecord b.progress.pointer r.repeatCount = .taken rr) :
    JumpsTo s b { (s.lane b.lane).served b with repeatRecord := rr } s.map.queue (r.word1.extractLsb' 0 15) :=
  jumpsTo_of_result (exec_directLink hends hdispatch hkind hdirect houtcome) (leaves_taken_repeat s b rr)
    (s.taken_map b)

/-- Settles O39, by the outcome of the repeat logic. -/
theorem linksFollowTheRepeatRecord : Obligations.LinksFollowTheRepeatRecord := by
  intro s b r hends hdispatch hkind hsound
  refine ⟨fun hindirect => ?_, fun hdirect => ⟨fun hzero => ?_, fun hcount hnone => ?_, fun hcount a m hheld =>
    ⟨fun hown hmore => ?_, fun hown hlast => ?_, fun hother => ?_⟩⟩⟩
  case refine_1 =>
    have hexec := exec_beatEnd hends
    rw [beatResult_dispatches hdispatch] at hexec
    simp only [dispatchRecord, hkind, dispatchLink, refIndirect, hindirect, if_true, refAddress] at hexec
    have hresolve := (leaves_taken s b).quiet (leaves_conclude_beginResolution (s.taken_lane b) .link
      (r.word1.extractLsb' 0 15) b.step)
    obtain ⟨hlane, hothers, hentries, hframe⟩ := hresolve.atQuietEnd
    refine ⟨_, hexec, hlane, hothers, hentries, ?_, hframe⟩
    rw [conclude_beginResolution_queue (s.taken_lane b), State.taken_map, page_address]
  case refine_2 => exact link_jumps hends hdispatch hkind hdirect (linkOutcome_zero hzero _ _)
  case refine_3 => exact link_jumps hends hdispatch hkind hdirect (by rw [hnone]; exact linkOutcome_first hcount _)
  case refine_4 =>
    exact link_jumps hends hdispatch hkind hdirect (by rw [hheld, hown]; exact linkOutcome_again hcount _ hmore)
  case refine_5 =>
    have houtcome : linkOutcome (s.lane b.lane).repeatRecord b.progress.pointer r.repeatCount = .fallThrough := by
      rw [hheld, hown]
      exact linkOutcome_done hcount _ hlast
    have hexec := exec_directLink hends hdispatch hkind hdirect houtcome
    have hremoved := leaves_taken_repeat s b none
    have hdone := hremoved.after (leaves_conclude_completeAdvance hremoved.lane (hsound.tidy b.lane) b.step)
    obtain ⟨hlane, hothers, hentries, hints, hframe⟩ := hdone.atLaneEnd
    exact ⟨_, hexec, hlane, hothers, hentries, hints, hframe⟩
  case refine_6 =>
    have houtcome : linkOutcome (s.lane b.lane).repeatRecord b.progress.pointer r.repeatCount = .nested a := by
      rw [hheld]
      exact linkOutcome_other hcount _ hother
    have hexec := exec_directLink hends hdispatch hkind hdirect houtcome
    simp only [linkResult, State.taken_lane, concludeBeat] at hexec
    have hcounted := (leaves_taken s b).quiet (leaves_countBeat (s.taken_lane b))
    have hfault := hcounted.fault (hsound.tidy b.lane) b.step ⟨.nestedRepeat, b.progress.pointer, a, .walk, 0⟩
    obtain ⟨hlane, hothers, -, hints, hframe⟩ := hfault.atLaneEnd
    exact ⟨_, hexec, hlane, hothers, enterFaulted_counted_map hsound b _, hints, hframe⟩

end Sys2Proof.Machine
end

section
/-! CERTIFICATE. Dispatch of a POST, a WAIT, a RAISE and a STOP (R77 to R79), and the finish of a MOVE (R88, R89). -/

namespace Sys2Proof.Machine

/-! ### Dispatch of a POST -/

/-- Settles O40, by whether the queue has room. -/
theorem postPushesOrTakesAPendingPost : Obligations.PostPushesOrTakesAPendingPost := by
  intro s b r hends hdispatch hkind hsound
  have hexec := exec_beatEnd hends
  rw [beatResult_dispatches hdispatch] at hexec
  simp only [dispatchRecord, hkind, dispatchPost, RecordCopy.tag_eq] at hexec
  refine ⟨fun hroom => ?_, fun hfull => ?_⟩
  · rw [push_eq (by rwa [State.taken_queue])] at hexec
    have hpushed := leaves_taken_pushed s b .post (r.word3.extractLsb' 0 16)
    have hdone := hpushed.trans (leaves_conclude_completeAdvance hpushed.lane (hsound.tidy b.lane) b.step)
    obtain ⟨hsignals, hqueue, hlane, hothers, hentries, hints, hframe⟩ := hdone.atBeatEnd (g := s.signals)
    rw [hsignals] at hframe
    exact ⟨_, hexec, hqueue, hints, hlane, hothers, hentries, hframe⟩
  · rw [push_full (by rwa [State.taken_queue])] at hexec
    simp only [conclude_takePendingPost, State.taken_lane] at hexec
    exact runs_taken_setLane hexec

/-! ### Dispatch of a WAIT -/

/-- A wait no signal of whose mask is set is not satisfied (R78). -/
theorem satisfyWait_none {s : State} {mask : Half} (h : s.signals &&& mask = 0) (consume : Bool) :
    satisfyWait s mask consume = none := by
  rw [satisfyWait, h]
  rfl

/-- In an ascending list the least member that passes a test is the one found. -/
theorem find?_least {p : SignalId → Bool} {n : SignalId} (hn : p n = true) (hlow : ∀ m, m < n → p m = false) :
    ∀ {ns : List SignalId}, ns.Pairwise (· < ·) → n ∈ ns → ns.find? p = some n
  | m :: ns, hns, hmem => by
    obtain ⟨hm, hrest⟩ := List.pairwise_cons.mp hns
    rcases List.mem_cons.mp hmem with rfl | hmem
    · exact List.find?_cons_of_pos hn
    · rw [List.find?_cons_of_neg (by simp [hlow m (hm n hmem)])]
      exact find?_least hn hlow hrest hmem

/-- The lowest signal of a set is found (R78). -/
theorem lowestSignal_eq {set : Half} {n : SignalId} (hn : set.getLsbD n.val = true)
    (hlow : ∀ m : SignalId, m < n → set.getLsbD m.val = false) : lowestSignal set = some n :=
  find?_least hn hlow (by decide) (mem_allSignals n)

/-- The signals that a satisfied wait leaves: without its signal, if it consumes (R78). -/
def signalsAfterWait (signals : Half) (n : SignalId) (consume : Bool) : Half :=
  if consume then signals &&& ~~~ (BitVec.twoPow 16 n.val) else signals

theorem satisfyWait_some {s : State} {mask : Half} {n : SignalId} (h : lowestSignal (s.signals &&& mask) = some n)
    (consume : Bool) : satisfyWait s mask consume = some (s.withSignals (signalsAfterWait s.signals n consume)) := by
  rw [satisfyWait, h]
  cases consume <;> rfl

/-- A WAIT that is satisfied at its dispatch completes with the signals it leaves (R78, R16). -/
theorem wait_completes {s : State} {b : Beat} {signals : Half} (hsound : s.lookupsSound)
    (hexec : exec .beatEnd s =
      .next (concludeBeat (completeAdvance ((s.taken b).withSignals signals) b.lane) b.lane b.step)) :
    Runs .beatEnd s fun t =>
      t.signals = signals ∧ t.lane b.lane = ((s.lane b.lane).served b).completed b.step ∧ OtherLanesKept s t b.lane ∧
      t.map.entries = s.map.entries ∧ t.ints = s.ints.setting (completionInts b.progress.pointer b.step) ∧
      t = { s with
        beat := none, lanes := t.lanes, map := t.map, signals := t.signals, ints := t.ints, window := t.window } := by
  have hset := (leaves_taken s b).withSignals signals
  have hdone := hset.after (leaves_conclude_completeAdvance hset.lane (hsound.tidy b.lane) b.step)
  obtain ⟨hsignals, hqueue, hlane, hothers, hentries, hints, hframe⟩ := hdone.atBeatEnd (q := s.queue)
  rw [hqueue] at hframe
  exact ⟨_, hexec, hsignals, hlane, hothers, hentries, hints, hframe⟩

/-! ### Dispatch of a STOP -/

/-- A STOP with its push made, or with none to make, leaves the lane IDLE (R14). -/
theorem stop_completes {s p : State} {b : Beat} {mask : BitVec 8} {q : CompletionQueue} (hsound : s.lookupsSound)
    (hp : Leaves b.lane { s.lane b.lane with progress := b.progress } mask { s with beat := none, queue := q } p)
    (hmap : p.map = s.map) (hexec : exec .beatEnd s = .next (concludeBeat (p, .idle) b.lane b.step)) :
    Runs .beatEnd s fun t =>
      t.lane b.lane = ((s.lane b.lane).served b).stopped ∧ OtherLanesKept s t b.lane ∧
      t.map = s.map.without b.lane ∧ t.queue = q ∧ t.ints = s.ints.setting mask ∧
      t = { s with
        beat := none, lanes := t.lanes, map := t.map, queue := t.queue, ints := t.ints, window := t.window } := by
  have hcounted := hp.quiet (leaves_countBeat hp.lane)
  have hidle := hcounted.quiet (leaves_enterIdleAtStop hcounted.lane (hsound.tidy b.lane))
  obtain ⟨hsignals, hqueue, hlane, hothers, -, hints, hframe⟩ := hidle.atBeatEnd (g := s.signals)
  have hcursors : ∀ r, (countBeat p b.lane).CursorSound b.lane r := fun r => by
    refine (hsound.cursorSound b.lane r).congr hmap ?_
    rw [hcounted.lane]
    cases r <;> rfl
  rw [hsignals] at hframe
  refine ⟨_, hexec, hlane, hothers, ?_, hqueue, hints, hframe⟩
  rw [← hmap]
  exact enterIdleAtStop_map hcursors

/-- Settles O41, by kind, and by the signals, the queue and POST_AFTER. -/
theorem waitRaiseAndStopDispatch : Obligations.WaitRaiseAndStopDispatch := by
  intro s b r hends hdispatch hsound hactive
  have hexec := exec_beatEnd hends
  rw [beatResult_dispatches hdispatch] at hexec
  have htidy := hsound.tidy b.lane
  have hawake : (s.lane b.lane).state ≠ .waiting := by simp [hactive]
  refine ⟨fun hkind hnone => ?_, fun hkind n hn hlow => ?_, fun hkind => ?_, fun hkind hroom => ?_,
    fun hkind hpost hfull => ?_⟩
  case refine_1 =>
    simp only [dispatchRecord, hkind, dispatchWait, RecordCopy.mask_eq, RecordCopy.timeout_eq, RecordCopy.tag_eq]
      at hexec
    rw [satisfyWait_none (by rwa [State.taken_signals])] at hexec
    simp only [conclude_waiting, State.taken_lane] at hexec
    exact runs_taken_setLane hexec
  case refine_2 =>
    simp only [dispatchRecord, hkind, dispatchWait, RecordCopy.mask_eq] at hexec
    rw [satisfyWait_some (n := n) (by rw [State.taken_signals]; exact lowestSignal_eq hn hlow), State.taken_signals]
      at hexec
    exact wait_completes hsound hexec
  case refine_3 =>
    simp only [dispatchRecord, hkind, dispatchRaise, RecordCopy.mask_eq] at hexec
    refine ⟨_, exec_signalSet hends.1 _, _, hexec, ?_⟩
    have htaken := leaves_taken s b
    have hwakes := (htaken.wakesAlike (q := s.queue) rfl rfl hawake hsound.tidy).setSignals (r.word1.extractLsb' 0 16)
    have hraised := onlyLanes_setSignals_awake (r.word1.extractLsb' 0 16) (s := s.taken b) (l := b.lane)
      (by rw [htaken.lane]; exact hawake)
    have hdone := leaves_conclude_completeAdvance (hraised.lane_kept.trans htaken.lane) htidy b.step
    obtain ⟨hqueue, hsignals, hlane, hothers, hentries, hints, hframe⟩ :=
      Leaves.afterWakes (q := s.queue) htaken hraised hwakes hdone
    rw [hqueue] at hframe
    exact ⟨hsignals, hlane, hothers, hentries, by simpa using hints, hframe⟩
  case refine_4 =>
    simp only [dispatchRecord, hkind, dispatchStop, RecordCopy.postAfter, RecordCopy.tag_eq] at hexec
    cases hpost : r.word0.getLsbD 25 with
    | false =>
      simp only [hpost, Bool.false_eq_true, if_false] at hexec ⊢
      exact stop_completes hsound (q := s.queue) (leaves_taken s b) (s.taken_map b) hexec
    | true =>
      have hroom' : s.queue.entries.length < 32 := hroom.resolve_left (by rw [hpost]; decide)
      simp only [hpost, if_true] at hexec ⊢
      rw [push_eq (by rwa [State.taken_queue])] at hexec
      exact stop_completes hsound (leaves_taken_pushed s b .stop _) (s.taken_map b) hexec
  case refine_5 =>
    simp only [dispatchRecord, hkind, dispatchStop, RecordCopy.postAfter, hpost, if_true, RecordCopy.tag_eq] at hexec
    rw [push_full (by rwa [State.taken_queue])] at hexec
    simp only [conclude_takePendingPost, State.taken_lane] at hexec
    exact runs_taken_setLane hexec

/-! ### The finish of a MOVE -/

/-- What the statement says of the beat end that completes a MOVE, from the state `v` that the set of its signal leaves:
`q` is the queue and `mask` the bits of the push (R88, R90). -/
def MoveCompleted (s : State) (b : Beat) (mask : BitVec 8) (q : CompletionQueue) (v t : State) : Prop :=
  t.queue = q ∧ t.signals = v.signals ∧
  t.lane b.lane = ({ (s.lane b.lane).served b with
    pendingPost := none, src := ⟨0, .unset⟩, dst := ⟨0, .unset⟩ } : Lane).completed b.step ∧
  OtherLanesKept v t b.lane ∧ t.map.entries = s.map.entries ∧
  t.ints = v.ints.setting (mask ||| completionInts b.progress.pointer b.step) ∧
  t = { s with
    beat := none, lanes := t.lanes, map := t.map, signals := t.signals, queue := t.queue, ints := t.ints
    window := t.window }

/-- After the push and the signal of a MOVE, SRC and DST are released and the record completes (R6, R88, R90). -/
theorem move_advances {s p v u : State} {b : Beat} {mask : BitVec 8} {q : CompletionQueue} (hsound : s.lookupsSound)
    (hp : Leaves b.lane { s.lane b.lane with progress := b.progress, pendingPost := none } mask
      { s with beat := none, queue := q } p)
    (hu : OnlyLanes (· ≠ b.lane) p u) (hv : WakesAlike b.lane mask v u)
    (hexec : exec .beatEnd s =
      .next (concludeBeat (completeAdvance (release (release u b.lane .src) b.lane .dst) b.lane) b.lane b.step)) :
    Runs .beatEnd s (MoveCompleted s b mask q v) := by
  have htidy := hsound.tidy b.lane
  have hsrc := leaves_release (hu.lane_kept.trans hp.lane) htidy .src
  have htidySrc := htidy.setCursor .src (c := .unset) fun _ => rfl
  have hdst := hsrc.quiet (leaves_release hsrc.lane htidySrc .dst)
  have htidyDst := htidySrc.setCursor .dst (c := .unset) fun _ => rfl
  have hdone := hdst.after (leaves_conclude_completeAdvance hdst.lane htidyDst b.step)
  exact ⟨_, hexec, hp.afterWakes hu hv hdone⟩

/-- What is left to do of a MOVE once its push is made, or once there is none to make: the signal, the release of SRC and
DST, and the advance (R88). -/
theorem move_completes {s p : State} {b : Beat} {r : RecordCopy} {mask : BitVec 8} {q : CompletionQueue}
    (hpin : s.resetPin = false) (hsound : s.lookupsSound) (hawake : (s.lane b.lane).state ≠ .waiting)
    (hp : Leaves b.lane { s.lane b.lane with progress := b.progress, pendingPost := none } mask
      { s with beat := none, queue := q } p)
    (hexec : exec .beatEnd s = .next (concludeBeat (completeMove p b.lane r) b.lane b.step)) :
    AfterSignals (r.word0.getLsbD 24) (BitVec.twoPow 16 (r.word0.extractLsb' 16 4).toNat) s fun v =>
      Runs .beatEnd s (MoveCompleted s b mask q v) := by
  have halike := hp.wakesAlike rfl rfl hawake hsound.tidy
  cases hsignal : r.word0.getLsbD 24 with
  | false =>
    simp only [completeMove, RecordCopy.signalAfter, hsignal, Bool.false_eq_true, if_false] at hexec ⊢
    exact move_advances hsound hp (.refl _ p) halike hexec
  | true =>
    simp only [completeMove, RecordCopy.signalAfter, hsignal, if_true] at hexec ⊢
    have hset : setSignals s (BitVec.twoPow 16 (r.word0.extractLsb' 16 4).toNat) = setSignal s r.signal :=
      setSignals_twoPow s r.signal
    have hothers : OnlyLanes (· ≠ b.lane) p (setSignal p r.signal) :=
      onlyLanes_setSignal_awake (by rw [hp.lane]; exact hawake) r.signal
    refine ⟨_, exec_signalSet hpin _, ?_⟩
    rw [hset]
    exact move_advances hsound hp hothers (halike.setSignal r.signal) hexec

/-- The results of a TRANSFER beat that ended with the finish step (R82, R88). -/
theorem beatResult_finishStep {s : State} {b : Beat} {r : RecordCopy} (hcopy : b.progress.current = some r)
    (hwork : b.work.isFinishStep = true) :
    beatResult (s.taken b) b.lane b.work = finishMove (s.taken b) b.lane r := by
  unfold BeatWork.isFinishStep at hwork
  split at hwork
  · next e => simp [e, beatResult, hcopy, transferResult]
  · contradiction

theorem finishStep_not_load {w : BeatWork} (h : w.isFinishStep = true) : w.isLoad = false := by
  cases w with
  | load walk words => simp [BeatWork.isFinishStep] at h
  | dispatch => rfl
  | resolve hop cell => rfl
  | transfer src dst moved held stop => rfl
  | finish => rfl

/-- The results of a FINISH beat that retries a held entry (R89). -/
theorem beatResult_finish {s : State} {b : Beat} {r : RecordCopy} {post : PendingPost}
    (hcopy : b.progress.current = some r) (hwork : b.work = .finish)
    (hheld : (s.lane b.lane).pendingPost = some post) :
    beatResult (s.taken b) b.lane b.work = finishResult (s.taken b) b.lane r post := by
  simp [hwork, beatResult, hcopy, hheld]

/-- A lane that stays on QUEUE with the entry it holds is as if it had taken it anew (R133). -/
theorem conclude_onQueue {s : State} {l : LaneId} {kind : EntryKind} {tag : Half} (hphase : (s.lane l).phase = .finish)
    (hheld : (s.lane l).pendingPost = some ⟨kind, tag⟩) (step : Bool) :
    concludeBeat (s, .onQueue) l step = s.setLane l ((s.lane l).counted.heldOnQueue kind tag) := by
  have hsame : s.updLane l (fun x => { x with pendingPost := some ⟨kind, tag⟩, phase := .finish }) = s := by
    rw [State.updLane, ← hheld, ← hphase, State.setLane_self]
  have hpending := conclude_takePendingPost s l kind tag step
  rw [takePendingPost, hsame] at hpending
  exact hpending

/-- A beat end with no read index to change leaves the beat's lane held on QUEUE and nothing else changed. -/
theorem taken_setLane_of_not_load {s : State} {b : Beat} (h : b.work.isLoad = false) (x : Lane) :
    (s.taken b).setLane b.lane x = { s.setLane b.lane x with beat := none } := by
  rw [State.taken_setLane, h]
  simp [Window.indexAfter]

/-- Settles O43, by the beat that reaches the finish and by whether there is an entry to push and room for it. -/
theorem moveFinishPostsSignalsAndCompletes : Obligations.MoveFinishPostsSignalsAndCompletes := by
  intro s b r hends hcopy hkind hactive hsound hfinish
  have hexec := exec_beatEnd hends
  have hawake : (s.lane b.lane).state ≠ .waiting := by simp [hactive]
  rcases hfinish with ⟨hwork, hnone⟩ | ⟨hwork, hphase, hpost, hheld⟩
  case inl =>
    have hlane : ({ s.lane b.lane with progress := b.progress } : Lane) =
        { s.lane b.lane with progress := b.progress, pendingPost := none } := by rw [← hnone]
    rw [beatResult_finishStep hcopy hwork] at hexec
    simp only [finishMove, RecordCopy.postAfter, RecordCopy.tag_eq] at hexec
    refine ⟨fun hroom => ?_, fun hpost hfull => ?_⟩
    · cases hpost : r.word0.getLsbD 25 with
      | false =>
        simp only [hpost, Bool.false_eq_true, if_false] at hexec ⊢
        exact move_completes (q := s.queue) hends.1 hsound hawake (hlane ▸ leaves_taken s b) hexec
      | true =>
        have hroom' : s.queue.entries.length < 32 := hroom.resolve_left (by rw [hpost]; decide)
        rw [hpost, push_eq (by rwa [State.taken_queue])] at hexec
        simp only [if_true] at hexec ⊢
        exact move_completes hends.1 hsound hawake (hlane ▸ leaves_taken_pushed s b .moveDone _) hexec
    · rw [hpost, push_full (by rwa [State.taken_queue])] at hexec
      simp only [if_true, conclude_takePendingPost, State.taken_lane,
        taken_setLane_of_not_load (finishStep_not_load hwork)] at hexec
      exact hexec
  case inr =>
    rw [beatResult_finish hcopy hwork hheld] at hexec
    simp only [finishResult] at hexec
    refine ⟨fun hroom => ?_, fun _ hfull => ?_⟩
    · have hroom' : s.queue.entries.length < 32 := hroom.resolve_left (by rw [hpost]; decide)
      rw [push_eq (by rwa [State.taken_queue])] at hexec
      simp only [hkind] at hexec
      simp only [hpost, if_true]
      have hpushed := leaves_taken_pushed s b .moveDone (r.word3.extractLsb' 0 16)
      exact move_completes hends.1 hsound hawake
        (hpushed.quiet (leaves_updLane hpushed.lane fun x => { x with pendingPost := none })) hexec
    · rw [push_full (by rwa [State.taken_queue]),
        conclude_onQueue (by rwa [State.taken_lane]) (by rwa [State.taken_lane])] at hexec
      simp only [State.taken_lane, taken_setLane_of_not_load (show b.work.isLoad = false by rw [hwork]; rfl)] at hexec
      exact hexec

end Sys2Proof.Machine
end

section
/-! SUPPORT. Lane contexts that agree with their state (O55): the condition lane by lane, the part of a context it reads, and
what each operation on a lane makes of it. -/

namespace Sys2Proof.Machine

/-! ### The condition lane by lane -/

/-- A lane context is consistent, and agrees with whether the lane's own beat is in progress: if it is the lane is ACTIVE, and a
deferred request is held only then. -/
def Lane.Fits (x : Lane) (inBeat : Bool) : Prop :=
  x.consistent ∧ (inBeat = true → x.state = .active) ∧ (x.deferred.isSome = true → inBeat = true)

/-- Every lane agrees with whether it is named as the lane of a beat. -/
def State.LanesFit (s : State) (own : LaneId → Bool) : Prop := ∀ l, (s.lane l).Fits (own l)

theorem State.ownBeat_iff {s : State} {l : LaneId} : s.ownBeat l = true ↔ ∃ b, s.beat = some b ∧ b.lane = l := by
  unfold State.ownBeat
  cases s.beat <;> simp

theorem State.ownBeat_congr {s t : State} (h : t.beat = s.beat) : t.ownBeat = s.ownBeat := by
  funext l
  simp only [State.ownBeat, h]

theorem State.lanesConsistent_iff {s : State} : s.lanesConsistent ↔ s.LanesFit s.ownBeat := by
  constructor
  · rintro ⟨hlanes, hbeat, hdeferred⟩ l
    refine ⟨hlanes l, fun hown => ?_, hdeferred l⟩
    obtain ⟨b, hb, rfl⟩ := State.ownBeat_iff.mp hown
    exact hbeat b hb
  · intro h
    exact ⟨fun l => (h l).1, fun b hb => (h b.lane).2.1 (State.ownBeat_iff.mpr ⟨b, hb, rfl⟩), fun l => (h l).2.2⟩

/-- A lane that is not ACTIVE is not the lane of a beat. -/
theorem Lane.Fits.not_inBeat {x : Lane} {inBeat : Bool} (h : x.Fits inBeat) (hstate : x.state ≠ .active) :
    inBeat = false := by
  cases inBeat
  · rfl
  · exact absurd (h.2.1 rfl) hstate

/-- A lane outside its beat holds no deferred request. -/
theorem Lane.Fits.not_deferred {x : Lane} (h : x.Fits false) : x.deferred = none := by
  cases hd : x.deferred with
  | none => rfl
  | some d => exact absurd (h.2.2 (by rw [hd]; rfl)) (by simp)

/-! ### What the condition reads -/

/-- The fields of a lane context that the condition reads, the others at their reset values. -/
def Lane.core (x : Lane) : Lane :=
  { Lane.reset with
    state := x.state, reasons := x.reasons, portWait := x.portWait, wait := x.wait, haltReason := x.haltReason
    resume := x.resume, deferred := x.deferred, credit := x.credit, fault := x.fault }

theorem Lane.Fits.congr {x y : Lane} {inBeat : Bool} (h : x.Fits inBeat) (e : y.core = x.core) : y.Fits inBeat := by
  have hcore : x.core.Fits inBeat := h
  rw [← e] at hcore
  exact hcore

@[simp] theorem Lane.core_setCursor (x : Lane) (r : Role) (c : Cursor) : (x.setCursor r c).core = x.core := by
  cases r <;> rfl

/-- From `s` to `t` no lane has changed in what the condition reads. -/
def SameCores (s t : State) : Prop := ∀ k, (t.lane k).core = (s.lane k).core

theorem SameCores.trans {s t u : State} (h : SameCores s t) (g : SameCores t u) : SameCores s u :=
  fun k => (g k).trans (h k)

theorem sameCores_of_lanes {s t : State} (h : t.lanes = s.lanes) : SameCores s t :=
  fun k => congrArg Lane.core (State.lane_congr h k)

theorem sameCores_updLane (s : State) (l : LaneId) (f : Lane → Lane)
    (h : ∀ x, (f x).core = x.core := by exact fun _ => rfl) : SameCores s (s.updLane l f) := by
  intro k
  rw [State.lane_updLane]
  split
  · next e => rw [h, e]
  · rfl

theorem SameCores.lanesFit {s t : State} {own : LaneId → Bool} (h : SameCores s t) (hs : s.LanesFit own) :
    t.LanesFit own := fun l => (hs l).congr (h l)

/-- A command that leaves the lanes and the lane of the beat keeps the condition. -/
theorem SameCores.lanesConsistent {s t : State} (h : SameCores s t) (hbeat : t.ownBeat = s.ownBeat)
    (hs : s.lanesConsistent) : t.lanesConsistent := by
  rw [State.lanesConsistent_iff] at hs ⊢
  rw [hbeat]
  exact h.lanesFit hs

/-- With no beat in progress every lane fits as one outside its beat. -/
theorem lanesConsistent_of_no_beat {s : State} (hbeat : s.beat = none) (h : ∀ l, (s.lane l).Fits false) :
    s.lanesConsistent := by
  rw [State.lanesConsistent_iff]
  intro l
  have hown : s.ownBeat l = false := by simp [State.ownBeat, hbeat]
  exact hown ▸ h l

theorem lanesConsistent_of_lanes {s t : State} (hs : s.lanesConsistent) (hlanes : t.lanes = s.lanes)
    (hbeat : t.beat = s.beat) : t.lanesConsistent :=
  (sameCores_of_lanes hlanes).lanesConsistent (State.ownBeat_congr hbeat) hs

theorem sameCores_retarget (s : State) (l : LaneId) (r : Role) (page : BitVec 7) : SameCores s (retarget s l r page) := by
  intro k
  by_cases e : k = l
  · rw [e, retarget_lane, Lane.core_setCursor]
  · rw [(onlyLane_retarget s l r page).others k e]

theorem sameCores_enqueue (s : State) (l : LaneId) (r : Role) (page : BitVec 7) : SameCores s (s.enqueue l r page) := by
  intro k
  rw [State.lane_enqueue]
  split
  · next e => rw [Lane.core_setCursor, e]
  · rfl

theorem sameCores_release (s : State) (l : LaneId) (r : Role) : SameCores s (release s l r) := by
  intro k
  by_cases e : k = l
  · rw [e, release_lane]
    split
    · rfl
    · exact Lane.core_setCursor _ _ _
  · rw [(onlyLane_release s l r).others k e]

theorem sameCores_releaseAll (s : State) (l : LaneId) : SameCores s (releaseAll s l) :=
  (((sameCores_release s l .walk).trans (sameCores_release _ l .hop)).trans (sameCores_release _ l .src)).trans
    (sameCores_release _ l .dst)

theorem sameCores_dropCopy (s : State) (l : LaneId) : SameCores s (dropCopy s l) := by
  intro k
  by_cases e : k = l
  · rw [e, (leaves_dropCopy rfl).lane]
    rfl
  · rw [(onlyLane_dropCopy s l).others k e]

/-! ### One lane at a time -/

/-- An operation on one lane keeps the condition if the lane fits afterwards. -/
theorem OnlyLane.lanesFit {l : LaneId} {s t : State} {own : LaneId → Bool} (h : OnlyLane l s t) (hs : s.LanesFit own)
    (hl : (t.lane l).Fits (own l)) : t.LanesFit own := by
  intro k
  by_cases e : k = l
  · exact e ▸ hl
  · rw [h.others k e]
    exact hs k

theorem OnlyLane.lanesConsistent {l : LaneId} {s t : State} (h : OnlyLane l s t) (hs : s.lanesConsistent)
    (hl : (t.lane l).Fits (s.ownBeat l)) : t.lanesConsistent := by
  rw [State.lanesConsistent_iff] at hs ⊢
  rw [State.ownBeat_congr h.beat]
  exact h.lanesFit hs hl

/-! ### Contexts that are consistent -/

/-- A lane that a rule may make ACTIVE, BLOCKED, WAITING, HALTED or FAULTED: it holds no part of those states (R20). -/
structure Lane.Bare (x : Lane) : Prop where
  fault : x.fault = none
  haltReason : x.haltReason = none
  resume : x.resume = none
  portWait : x.portWait = none
  wait : x.wait = none
  deferred : x.deferred = none
  credit : x.credit ≤ 3

theorem Lane.Bare.congr {x y : Lane} (h : x.Bare) (e : y.core = x.core) : y.Bare := by
  have hcore : x.core.Bare := ⟨h.fault, h.haltReason, h.resume, h.portWait, h.wait, h.deferred, h.credit⟩
  rw [← e] at hcore
  exact ⟨hcore.fault, hcore.haltReason, hcore.resume, hcore.portWait, hcore.wait, hcore.deferred, hcore.credit⟩

@[simp] theorem Reasons.port_empty : Reasons.empty.port = false := rfl

/-! The consistent contexts, state by state. -/

/-- OFF and IDLE hold no part of another state, and no credit. -/
theorem Lane.Bare.fits_resting {x : Lane} (h : x.Bare) (hstate : x.state = .off ∨ x.state = .idle)
    (hreasons : x.reasons = .empty) (hcredit : x.credit = 0) : x.Fits false := by
  rcases hstate with hstate | hstate <;>
    simp [Lane.Fits, Lane.consistent, hstate, hreasons, h.fault, h.haltReason, h.resume, h.portWait, h.wait, h.deferred,
      hcredit, Resume.held]

theorem Lane.Fits.bare_of_resting {x : Lane} {inBeat : Bool} (h : x.Fits inBeat)
    (hstate : x.state = .off ∨ x.state = .idle) : x.Bare ∧ x.reasons = .empty ∧ x.credit = 0 := by
  obtain rfl := h.not_inBeat (by rcases hstate with e | e <;> simp [e])
  have hdeferred := h.not_deferred
  obtain ⟨⟨hfault, hreasons, hhalt, hresume, -, hport, hwait, hcredit, hzero⟩, -, -⟩ := h
  have hr : x.reasons = .empty := by rcases hstate with e | e <;> simpa [e] using hreasons
  have hn : x.resume = none := by rcases hstate with e | e <;> simpa [e] using hresume
  have hz : x.credit = 0 := by rcases hstate with e | e <;> exact hzero (by simp [e]) (by simp [e])
  refine ⟨⟨?_, ?_, hn, ?_, ?_, hdeferred, hcredit⟩, hr, hz⟩
  · rcases hstate with e | e <;> simpa [e] using hfault
  · rcases hstate with e | e <;> simpa [e] using hhalt
  · simpa [hr, hn, Resume.held] using hport
  · rcases hstate with e | e <;> simpa [e, hn] using hwait

theorem Lane.Bare.fits_active {x : Lane} (h : x.Bare) (hstate : x.state = .active) (hreasons : x.reasons = .empty) :
    x.Fits false := by
  simp [Lane.Fits, Lane.consistent, hstate, hreasons, h.fault, h.haltReason, h.resume, h.portWait, h.wait, h.deferred,
    h.credit, Resume.held]

theorem Lane.Fits.bare_of_active {x : Lane} (h : x.Fits false) (hstate : x.state = .active) :
    x.Bare ∧ x.reasons = .empty := by
  have hdeferred := h.not_deferred
  obtain ⟨⟨hfault, hreasons, hhalt, hresume, -, hport, hwait, hcredit, -⟩, -, -⟩ := h
  have hr : x.reasons = .empty := by simpa [hstate] using hreasons
  have hn : x.resume = none := by simpa [hstate] using hresume
  refine ⟨⟨by simpa [hstate] using hfault, by simpa [hstate] using hhalt, hn, ?_, ?_, hdeferred, hcredit⟩, hr⟩
  · simpa [hr, hn, Resume.held] using hport
  · simpa [hstate, hn] using hwait

/-- A BLOCKED lane holds its reasons, and a port wait exactly with PORT. -/
theorem Lane.fits_blocked {x : Lane} (h : ({ x with portWait := none } : Lane).Bare) (hstate : x.state = .blocked)
    (hreasons : x.reasons ≠ .empty) (hport : x.portWait.isSome = x.reasons.port) : x.Fits false := by
  obtain ⟨hfault, hhalt, hresume, -, hwait, hdeferred, hcredit⟩ := h
  simp only at hfault hhalt hresume hwait hdeferred hcredit
  simp [Lane.Fits, Lane.consistent, hstate, hreasons, hfault, hhalt, hresume, hport, hwait, hdeferred, hcredit,
    Resume.held]

theorem Lane.Fits.bare_of_blocked {x : Lane} {inBeat : Bool} (h : x.Fits inBeat) (hstate : x.state = .blocked) :
    ({ x with portWait := none } : Lane).Bare ∧ x.reasons ≠ .empty ∧ x.portWait.isSome = x.reasons.port := by
  obtain rfl := h.not_inBeat (by simp [hstate])
  have hdeferred := h.not_deferred
  obtain ⟨⟨hfault, hreasons, hhalt, hresume, -, hport, hwait, hcredit, -⟩, -, -⟩ := h
  have hn : x.resume = none := by simpa [hstate] using hresume
  refine ⟨⟨by simpa [hstate] using hfault, by simpa [hstate] using hhalt, hn, rfl, ?_, hdeferred, hcredit⟩,
    hreasons.mpr hstate, ?_⟩
  · simpa [hstate, hn] using hwait
  · rw [Bool.eq_iff_iff, hport, hn]
    simp [Resume.held]

/-- A WAITING lane holds its wait. -/
theorem Lane.fits_waiting {x : Lane} (h : ({ x with wait := none } : Lane).Bare) (hstate : x.state = .waiting)
    (hreasons : x.reasons = .empty) (hwait : x.wait.isSome = true) (hcredit : x.credit = 0) : x.Fits false := by
  obtain ⟨hfault, hhalt, hresume, hport, -, hdeferred, -⟩ := h
  simp only at hfault hhalt hresume hport hdeferred
  simp [Lane.Fits, Lane.consistent, hstate, hreasons, hfault, hhalt, hresume, hport, hwait, hdeferred, hcredit,
    Resume.held]

theorem Lane.Fits.bare_of_waiting {x : Lane} {inBeat : Bool} (h : x.Fits inBeat) (hstate : x.state = .waiting) :
    ({ x with wait := none } : Lane).Bare ∧ x.reasons = .empty ∧ x.wait.isSome = true ∧ x.credit = 0 := by
  obtain rfl := h.not_inBeat (by simp [hstate])
  have hdeferred := h.not_deferred
  obtain ⟨⟨hfault, hreasons, hhalt, hresume, -, hport, hwait, hcredit, hzero⟩, -, -⟩ := h
  have hr : x.reasons = .empty := by simpa [hstate] using hreasons
  have hn : x.resume = none := by simpa [hstate] using hresume
  refine ⟨⟨by simpa [hstate] using hfault, by simpa [hstate] using hhalt, hn, ?_, rfl, hdeferred, hcredit⟩, hr,
    hwait.mpr (.inl hstate), hzero (by simp [hstate]) (by simp [hstate])⟩
  simpa [hr, hn, Resume.held] using hport

/-- A HALTED lane holds its halt reason and resume state, and what belongs to the resume state. -/
structure Lane.HaltedParts (x : Lane) : Prop where
  bare : ({ x with haltReason := none, resume := none, portWait := none, wait := none } : Lane).Bare
  state : x.state = .halted
  reasons : x.reasons = .empty
  haltReason : x.haltReason.isSome = true
  resume : x.resume.isSome = true
  held : x.resume ≠ some (.blocked .empty)
  port : x.portWait.isSome = (Resume.held x.resume).port
  wait : x.wait.isSome = true ↔ x.resume = some .waiting
  credit : x.credit = 0

theorem Lane.HaltedParts.fits {x : Lane} (h : x.HaltedParts) : x.Fits false := by
  obtain ⟨⟨hfault, -, -, -, -, hdeferred, -⟩, hstate, hreasons, hhalt, hresume, hheld, hport, hwait, hcredit⟩ := h
  simp only at hfault hdeferred
  simp [Lane.Fits, Lane.consistent, hstate, hreasons, hfault, hhalt, hresume, hheld, hport, hwait, hdeferred, hcredit]

theorem Lane.Fits.halted {x : Lane} {inBeat : Bool} (h : x.Fits inBeat) (hstate : x.state = .halted) :
    x.HaltedParts := by
  obtain rfl := h.not_inBeat (by simp [hstate])
  have hdeferred := h.not_deferred
  obtain ⟨⟨hfault, hreasons, hhalt, hresume, hheld, hport, hwait, hcredit, hzero⟩, -, -⟩ := h
  have hr : x.reasons = .empty := by simpa [hstate] using hreasons
  refine ⟨⟨by simpa [hstate] using hfault, rfl, rfl, rfl, rfl, hdeferred, hcredit⟩, hstate, hr, hhalt.mpr hstate,
    hresume.mpr hstate, hheld, ?_, ?_, hzero (by simp [hstate]) (by simp [hstate])⟩
  · rw [Bool.eq_iff_iff, hport, hr]
    simp
  · simpa [hstate] using hwait

/-- A lane that has entered FAULTED fits, whatever it was. -/
theorem Lane.fits_faultedWith (x : Lane) (f : FaultRecord) : (x.faultedWith f).Fits false := by
  simp [Lane.Fits, Lane.consistent, Lane.faultedWith, Reasons.empty, Resume.held]

/-! ### What the operations make of a context -/

/-- A lane settles consistently if it holds a port wait exactly with PORT (R23, R25). -/
theorem fits_settle {s : State} {l : LaneId} {reasons : Reasons} (h : ({ s.lane l with portWait := none } : Lane).Bare)
    (hport : (s.lane l).portWait.isSome = reasons.port) : ((settle s l reasons).lane l).Fits false := by
  rw [settle, State.lane_updLane_same]
  obtain ⟨hfault, hhalt, hresume, -, hwait, hdeferred, hcredit⟩ := h
  by_cases e : ({ reasons with map := reasons.map || !(s.lane l).neededMapped } : Reasons) = .empty
  · have hnoPort : reasons.port = false := congrArg Reasons.port e
    have hnone : (s.lane l).portWait = none := by simpa [hnoPort] using hport
    simp only [e, if_true]
    exact Lane.Bare.fits_active ⟨hfault, hhalt, hresume, hnone, hwait, hdeferred, hcredit⟩ rfl rfl
  · simp only [e, if_false]
    exact Lane.fits_blocked ⟨hfault, hhalt, hresume, rfl, hwait, hdeferred, hcredit⟩ rfl e hport

/-- A lane HALTED with resume state ACTIVE fits (R36, R37). -/
theorem Lane.Bare.fits_haltedBy {x : Lane} (h : x.Bare) (reason : HaltReason) : (x.haltedBy reason .active).Fits false :=
  Lane.HaltedParts.fits ⟨⟨h.fault, rfl, rfl, rfl, rfl, h.deferred, Nat.zero_le 3⟩, rfl, rfl, rfl, rfl, by simp [Lane.haltedBy],
    by simp [Lane.haltedBy, h.portWait, Resume.held], by simp [Lane.haltedBy, h.wait], rfl⟩

theorem enterFaulted_core (s : State) (l : LaneId) (f : FaultRecord) :
    ((enterFaulted s l f).lane l).core = ((s.lane l).faultedWith f).core := by
  rw [enterFaulted, State.lane_setInt, State.lane_updLane_same]
  rfl

theorem fits_enterFaulted (s : State) (l : LaneId) (f : FaultRecord) : ((enterFaulted s l f).lane l).Fits false :=
  (Lane.fits_faultedWith (s.lane l) f).congr (enterFaulted_core s l f)

theorem fits_clearLane (s : State) (l : LaneId) {into : LaneState} (h : into = .off ∨ into = .idle)
    (config : LaneConfig) : ((clearLane s l into config).lane l).Fits false := by
  rw [clearLane, State.lane_updLane_same]
  exact Lane.Bare.fits_resting ⟨rfl, rfl, rfl, rfl, rfl, rfl, Nat.zero_le 3⟩ h rfl rfl

/-- HALT taken at once leaves a lane outside its beat consistent, in every state (R30). -/
theorem fits_haltNow {s : State} {l : LaneId} (h : (s.lane l).Fits false) : ((haltNow s l).lane l).Fits false := by
  unfold haltNow
  cases hstate : (s.lane l).state with
  | active =>
    simp only [enterHalted_eq]
    exact (State.lane_setLane_same s l _) ▸ (h.bare_of_active hstate).1.fits_haltedBy .host
  | blocked =>
    obtain ⟨hbare, hreasons, hport⟩ := h.bare_of_blocked hstate
    simp only [enterHalted_eq]
    refine (State.lane_setLane_same s l _) ▸ Lane.HaltedParts.fits
      ⟨⟨hbare.fault, rfl, rfl, rfl, rfl, hbare.deferred, Nat.zero_le 3⟩, rfl, rfl, rfl, rfl, ?_, hport, ?_, rfl⟩
    · simpa [Lane.haltedBy] using hreasons
    · have hwait : (s.lane l).wait = none := hbare.wait
      simp [Lane.haltedBy, hwait]
  | waiting =>
    obtain ⟨hbare, hreasons, hwait, hcredit⟩ := h.bare_of_waiting hstate
    simp only [enterHalted_eq]
    refine (State.lane_setLane_same s l _) ▸ Lane.HaltedParts.fits
      ⟨⟨hbare.fault, rfl, rfl, rfl, rfl, hbare.deferred, Nat.zero_le 3⟩, rfl, rfl, rfl, rfl, ?_, ?_, ?_, rfl⟩
    · simp [Lane.haltedBy]
    · have hport : (s.lane l).portWait = none := hbare.portWait
      simp [Lane.haltedBy, hport, Resume.held]
    · simp [Lane.haltedBy, hwait]
  | off => exact h
  | idle => exact h
  | halted => exact h
  | faulted => exact h

end Sys2Proof.Machine
end

section
/-! SUPPORT. What the results of a beat are made of: a condition that each operation of theirs keeps holds after them, and the
verdicts they can come to. -/

namespace Sys2Proof.Machine

/-- A condition that each operation the results of a beat of lane `l` are made of keeps (R72 to R98). -/
structure KeptByResults (l : LaneId) (P : State → Prop) : Prop where
  updLane : ∀ {s : State} {f : Lane → Lane}, P s →
    (hf : ∀ x, (f x).core = x.core ∧ (f x).cursor = x.cursor := by exact fun _ => ⟨rfl, rfl⟩) → P (s.updLane l f)
  retarget : ∀ {s : State} (r : Role) (page : BitVec 7), P s → P (retarget s l r page)
  release : ∀ {s : State} (r : Role), P s → P (release s l r)
  dropCopy : ∀ {s : State}, P s → P (dropCopy s l)
  pushed : ∀ {s : State} (kind : EntryKind) (tag : Half), P s → P (s.pushed l kind tag)
  setSignal : ∀ {s : State} (n : SignalId), P s → P (setSignal s n)
  clearSignal : ∀ {s : State} (n : SignalId), P s → P (clearSignal s n)

/-- The verdicts of a beat: a port wait stands for PORT, and only a STOP leaves the lane IDLE (R23, R14). -/
def Verdict.Allowed (stop : Prop) : Verdict → Prop
  | .run reasons portWait => portWait.isSome = reasons.port
  | .idle => stop
  | _ => True

/-- Results that keep a condition, with a verdict a beat can come to. -/
structure Results (P : State → Prop) (stop : Prop) (result : State × Verdict) : Prop where
  state : P result.1
  verdict : result.2.Allowed stop

theorem Results.of {P : State → Prop} {stop : Prop} {s : State} {v : Verdict} (hs : P s) (hv : v.Allowed stop) :
    Results P stop (s, v) := ⟨hs, hv⟩

/-- A push is made or meets a full queue (R132, R133). -/
theorem push_cases (s : State) (l : LaneId) (kind : EntryKind) (tag : Half) :
    push s l kind tag = some (s.pushed l kind tag) ∨ push s l kind tag = none := by
  by_cases h : s.queue.entries.length < 32
  · exact .inl (push_eq h)
  · exact .inr (push_full (by omega))

section
variable {l : LaneId} {P : State → Prop} {stop : Prop} {s : State}

theorem KeptByResults.completeAdvance (h : KeptByResults l P) (hs : P s) : Results P stop (completeAdvance s l) := by
  have hload : P ((Machine.dropCopy s l).updLane l fun x => { x with phase := .load }) :=
    h.updLane (h.dropCopy hs)
  unfold Machine.completeAdvance
  dsimp only
  split
  · exact ⟨hload, trivial⟩
  · exact ⟨h.retarget .walk _ (h.updLane hload), trivial⟩

theorem KeptByResults.setUpTransfer (h : KeptByResults l P) (hs : P s) (r : RecordCopy) (source destination : LAddr) :
    Results P stop (setUpTransfer s l r source destination) :=
  ⟨h.retarget .dst _ (h.retarget .src _ (h.updLane hs)), rfl⟩

theorem KeptByResults.beginResolution (h : KeptByResults l P) (hs : P s) (target : ResolveTarget) (cell : LAddr) :
    Results P stop (beginResolution s l target cell) :=
  ⟨h.retarget .hop _ (h.updLane hs), rfl⟩

theorem KeptByResults.takeLink (h : KeptByResults l P) (hs : P s) (target : LAddr) :
    Results P stop (takeLink s l target) :=
  ⟨h.retarget .walk _ (h.updLane (h.dropCopy hs)), trivial⟩

theorem KeptByResults.takePendingPost (h : KeptByResults l P) (hs : P s) (kind : EntryKind) (tag : Half) :
    Results P stop (takePendingPost s l kind tag) := by
  unfold Machine.takePendingPost
  exact .of (h.updLane hs) rfl

theorem KeptByResults.endResolution (h : KeptByResults l P) (hs : P s) : P (endResolution s l) :=
  h.release .hop (h.updLane hs)

theorem KeptByResults.setSignals (h : KeptByResults l P) (hs : P s) (mask : Half) : P (setSignals s mask) := by
  unfold Machine.setSignals
  induction allSignals generalizing s with
  | nil => exact hs
  | cons n ns ih =>
    rw [List.foldl_cons]
    refine ih ?_
    split
    · exact h.setSignal n hs
    · exact hs

theorem KeptByResults.satisfyWait (h : KeptByResults l P) (hs : P s) {mask : Half} {consume : Bool} {t : State}
    (ht : satisfyWait s mask consume = some t) : P t := by
  unfold Machine.satisfyWait at ht
  split at ht
  · next n _ =>
    obtain rfl := Option.some.inj ht
    split
    · exact h.clearSignal n hs
    · exact hs
  · contradiction

/-! ### Dispatch -/

theorem KeptByResults.dispatchMove (h : KeptByResults l P) (hs : P s) (r : RecordCopy) :
    Results P stop (dispatchMove s l r) := by
  unfold Machine.dispatchMove
  dsimp only
  split
  · exact h.beginResolution hs _ _
  · split
    · exact h.beginResolution (h.updLane hs) _ _
    · exact h.setUpTransfer hs r _ _

theorem KeptByResults.actLink (h : KeptByResults l P) (hs : P s) (r : RecordCopy) (target : LAddr) (hops : Nat)
    {finish : State → State} (hfinish : P (finish s)) : Results P stop (actLink s l r target hops finish) := by
  unfold Machine.actLink
  dsimp only
  split
  · exact ⟨hs, trivial⟩
  · exact h.takeLink (h.updLane hfinish) target
  · refine h.completeAdvance (h.updLane ?_)
    split
    · exact hs
    · exact hfinish

theorem KeptByResults.dispatchLink (h : KeptByResults l P) (hs : P s) (r : RecordCopy) :
    Results P stop (dispatchLink s l r) := by
  unfold Machine.dispatchLink
  split
  · exact h.beginResolution hs _ _
  · exact h.actLink hs r _ _ hs

theorem KeptByResults.dispatchPost (h : KeptByResults l P) (hs : P s) (r : RecordCopy) :
    Results P stop (dispatchPost s l r) := by
  unfold Machine.dispatchPost
  rcases push_cases s l .post r.tag with e | e <;> rw [e]
  · exact h.completeAdvance (h.pushed _ _ hs)
  · exact h.takePendingPost hs _ _

theorem KeptByResults.dispatchStop (h : KeptByResults l P) (hs : P s) (r : RecordCopy) (hstop : stop) :
    Results P stop (dispatchStop s l r) := by
  unfold Machine.dispatchStop
  split
  · rcases push_cases s l .stop r.tag with e | e <;> rw [e]
    · exact ⟨h.pushed _ _ hs, hstop⟩
    · exact h.takePendingPost hs _ _
  · exact ⟨hs, hstop⟩

theorem KeptByResults.dispatchWait (h : KeptByResults l P) (hs : P s) (r : RecordCopy) :
    Results P stop (dispatchWait s l r) := by
  unfold Machine.dispatchWait
  split
  · next t ht => exact h.completeAdvance (h.satisfyWait hs ht)
  · exact .of (h.updLane hs) trivial

theorem KeptByResults.dispatchRecord (h : KeptByResults l P) (hs : P s) (r : RecordCopy) :
    Results P (r.kind = some .stop) (dispatchRecord s l r) := by
  unfold Machine.dispatchRecord
  split
  · exact h.dispatchMove hs r
  · exact h.dispatchLink hs r
  · exact h.dispatchPost hs r
  · exact h.dispatchWait hs r
  · exact h.completeAdvance (h.setSignals hs r.mask)
  · next hkind => exact h.dispatchStop hs r hkind
  · exact ⟨hs, rfl⟩

/-! ### The results by phase -/

theorem KeptByResults.loadResult (h : KeptByResults l P) (hs : P s) (r : RecordCopy) :
    Results P (r.kind = some .stop) (loadResult s l r) := by
  unfold Machine.loadResult
  dsimp only
  split
  · exact ⟨hs, trivial⟩
  · split
    · exact .of (h.updLane hs) trivial
    · exact h.dispatchRecord hs r

theorem KeptByResults.resolveResult (h : KeptByResults l P) (hs : P s) (r : RecordCopy) (cell : Word) :
    Results P stop (resolveResult s l r cell) := by
  unfold Machine.resolveResult
  dsimp only
  split
  · exact ⟨hs, trivial⟩
  · split
    · split
      · exact ⟨hs, trivial⟩
      · exact ⟨h.retarget .hop _ (h.updLane hs), rfl⟩
    · split
      · split
        · exact h.beginResolution (h.updLane hs) _ _
        · exact h.setUpTransfer (h.endResolution hs) r _ _
      · exact h.setUpTransfer (h.endResolution hs) r _ _
      · split
        · exact h.actLink hs r _ _ (h.endResolution (h.updLane hs))
        · exact ⟨hs, trivial⟩

theorem KeptByResults.completeMove (h : KeptByResults l P) (hs : P s) (r : RecordCopy) :
    Results P stop (completeMove s l r) := by
  unfold Machine.completeMove
  refine h.completeAdvance (h.release .dst (h.release .src ?_))
  split
  · exact h.setSignal _ hs
  · exact hs

theorem KeptByResults.finishMove (h : KeptByResults l P) (hs : P s) (r : RecordCopy) :
    Results P stop (finishMove s l r) := by
  unfold Machine.finishMove
  split
  · rcases push_cases s l .moveDone r.tag with e | e <;> rw [e]
    · exact h.completeMove (h.pushed _ _ hs) r
    · exact h.takePendingPost hs _ _
  · exact h.completeMove hs r

theorem KeptByResults.crossPages (h : KeptByResults l P) (hs : P s) (r : RecordCopy) (src dst : BeatCursor) :
    P (crossPages s l r src dst) := by
  unfold Machine.crossPages
  dsimp only
  split
  · refine h.retarget .dst _ ?_
    split
    · exact h.retarget .src _ hs
    · exact hs
  · split
    · exact h.retarget .src _ hs
    · exact hs

theorem KeptByResults.transferResult (h : KeptByResults l P) (hs : P s) (r : RecordCopy) (src dst : BeatCursor)
    (end_ : Stop) : Results P stop (transferResult s l r src dst end_) := by
  unfold Machine.transferResult
  dsimp only
  cases end_ with
  | finish => exact h.finishMove hs r
  | burst => exact ⟨hs, rfl⟩
  | crossing => exact ⟨h.crossPages hs r src dst, rfl⟩
  | portOff role => exact ⟨hs, trivial⟩
  | portEmpty q =>
    dsimp only
    split
    · exact ⟨hs, trivial⟩
    · split <;> exact ⟨hs, rfl⟩
  | portFull q =>
    dsimp only
    split
    · exact ⟨hs, trivial⟩
    · split <;> exact ⟨hs, rfl⟩
  | range role => exact ⟨hs, trivial⟩

theorem KeptByResults.finishResult (h : KeptByResults l P) (hs : P s) (r : RecordCopy) (held : PendingPost) :
    Results P (r.kind = some .stop) (finishResult s l r held) := by
  unfold Machine.finishResult
  rcases push_cases s l held.kind held.tag with e | e <;> rw [e] <;> dsimp only
  · have hpushed : P ((s.pushed l held.kind held.tag).updLane l fun x => { x with pendingPost := none }) :=
      h.updLane (h.pushed _ _ hs)
    split
    · exact h.completeMove hpushed r
    · next hkind => exact ⟨hpushed, hkind⟩
    · exact h.completeAdvance hpushed
  · exact ⟨hs, rfl⟩

/-- The results of a beat keep every condition that its operations keep, and leave the lane IDLE only at a STOP. -/
theorem KeptByResults.beatResult (h : KeptByResults l P) (hs : P s) (work : BeatWork) :
    Results P ((s.lane l).progress.current.bind RecordCopy.kind = some .stop) (beatResult s l work) := by
  unfold Machine.beatResult
  split
  case h_1 r hcopy => rw [hcopy]; exact h.loadResult hs r
  case h_2 r hcopy => rw [hcopy]; exact h.dispatchRecord hs r
  case h_3 r hcopy => exact h.resolveResult hs r _
  case h_4 r hcopy => exact h.transferResult hs r _ _ _
  case h_5 r hcopy =>
    rw [hcopy]
    split
    · exact h.finishResult hs r _
    · exact ⟨hs, rfl⟩
  case h_6 => exact ⟨hs, rfl⟩

end

end Sys2Proof.Machine
end

section
/-! SUPPORT. The operations on lanes keep the lane contexts in agreement with their states: verdicts and wakes, the releases
of block reasons, faults, the slot tick and the beat end. -/

namespace Sys2Proof.Machine

/-! ### Verdicts and the completion of a WAIT -/

/-- A bare lane fits after every verdict a beat can come to (R25, R14, R36, R37, R41). -/
theorem fits_applyVerdict {s : State} {l : LaneId} {stop : Prop} {v : Verdict} (h : (s.lane l).Bare)
    (hv : v.Allowed stop) (step : Bool) : ((applyVerdict s l step v).lane l).Fits false := by
  cases v with
  | run reasons portWait =>
    refine fits_settle ?_ ?_ <;> rw [State.lane_updLane_same]
    · exact ⟨h.fault, h.haltReason, h.resume, rfl, h.wait, h.deferred, h.credit⟩
    · exact hv
  | completed =>
    cases step with
    | false => exact fits_settle ⟨h.fault, h.haltReason, h.resume, rfl, h.wait, h.deferred, h.credit⟩ (by simp [h.portWait])
    | true => exact (State.lane_setLane_same s l _) ▸ h.fits_haltedBy .step
  | waiting w =>
    rw [applyVerdict, State.lane_updLane_same]
    exact Lane.fits_waiting ⟨h.fault, h.haltReason, h.resume, h.portWait, rfl, h.deferred, Nat.zero_le 3⟩ rfl rfl rfl rfl
  | breakHalt => exact (State.lane_setLane_same s l _) ▸ h.fits_haltedBy .breakFlag
  | idle =>
    have hkept := h.congr (((sameCores_dropCopy s l).trans (sameCores_releaseAll _ l)) l)
    rw [applyVerdict, enterIdleAtStop, State.lane_updLane_same]
    exact Lane.Bare.fits_resting ⟨hkept.fault, hkept.haltReason, hkept.resume, rfl, rfl, hkept.deferred, Nat.zero_le 3⟩
      (.inr rfl) rfl rfl
  | fault f => exact fits_enterFaulted s l f

theorem sameCores_completeAdvance (s : State) (l : LaneId) : SameCores s (completeAdvance s l).1 := by
  have hload : SameCores s ((dropCopy s l).updLane l fun x => { x with phase := .load }) :=
    (sameCores_dropCopy s l).trans (sameCores_updLane _ l _)
  unfold completeAdvance
  dsimp only
  split
  · exact hload
  · exact (hload.trans (sameCores_updLane _ l _)).trans (sameCores_retarget _ l _ _)

theorem completeAdvance_allowed (s : State) (l : LaneId) : (completeAdvance s l).2.Allowed False := by
  unfold completeAdvance
  dsimp only
  split <;> trivial

/-- A lane that holds a wait and nothing else of another state completes its WAIT consistently (R125). -/
theorem fits_completeWait {s : State} {l : LaneId} (h : ({ s.lane l with wait := none } : Lane).Bare) :
    ((completeWait s l).lane l).Fits false := by
  rw [← State.lane_updLane_same s l fun x => { x with wait := none }] at h
  exact fits_applyVerdict (h.congr (sameCores_completeAdvance _ l l)) (completeAdvance_allowed _ l) _

theorem lanesFit_completeWait {s : State} {own : LaneId → Bool} {l : LaneId} (hs : s.LanesFit own)
    (hstate : (s.lane l).state = .waiting) : (completeWait s l).LanesFit own := by
  refine (onlyLane_completeWait s l).lanesFit hs ?_
  rw [(hs l).not_inBeat (by simp [hstate])]
  exact fits_completeWait ((hs l).bare_of_waiting hstate).1

/-- The lanes of a list, all WAITING, complete their WAITs one after the other. -/
theorem lanesFit_foldl_completeWait {own : LaneId → Bool} :
    ∀ (ls : List LaneId) {s : State}, ls.Nodup → s.LanesFit own → (∀ l ∈ ls, (s.lane l).state = .waiting) →
      (ls.foldl completeWait s).LanesFit own
  | [], _, _, hs, _ => hs
  | l :: ls, s, hnodup, hs, hwaiting => by
    obtain ⟨hl, hls⟩ := List.nodup_cons.mp hnodup
    refine lanesFit_foldl_completeWait ls hls (lanesFit_completeWait hs (hwaiting l (by simp))) fun k hk => ?_
    rw [(onlyLane_completeWait s l).others k fun e => hl (e ▸ hk)]
    exact hwaiting k (by simp [hk])

theorem wokenBy_nodup (s : State) (n : SignalId) : (wokenBy s n).Nodup :=
  ((show allLanes.Nodup by decide).filter _).filter _

/-- The state a set of one signal wakes its waiters in: with the signal set, or left as it is when a waiter consumes it (R124). -/
theorem setSignal_eq (s : State) (n : SignalId) :
    setSignal s n = s ∨ ∃ signals, setSignal s n = (wokenBy s n).foldl completeWait (s.withSignals signals) := by
  unfold setSignal
  dsimp only
  split
  · exact .inl rfl
  · refine .inr ?_
    split
    · exact ⟨s.signals, rfl⟩
    · exact ⟨_, rfl⟩

theorem lanesFit_setSignal {s : State} {own : LaneId → Bool} (hs : s.LanesFit own) (n : SignalId) :
    (setSignal s n).LanesFit own := by
  rcases setSignal_eq s n with e | ⟨signals, e⟩ <;> rw [e]
  · exact hs
  · exact lanesFit_foldl_completeWait _ (wokenBy_nodup s n) hs fun l hl => waiter_waiting (wokenBy_waiter hl)

theorem lanesConsistent_setSignal {s : State} (hs : s.lanesConsistent) (n : SignalId) : (setSignal s n).lanesConsistent := by
  rw [State.lanesConsistent_iff] at hs ⊢
  rw [State.ownBeat_congr (onlyLanes_setSignal s n).beat]
  exact lanesFit_setSignal hs n

theorem lanesConsistent_setSignals {s : State} (hs : s.lanesConsistent) (mask : Half) :
    (setSignals s mask).lanesConsistent := by
  unfold setSignals
  induction allSignals generalizing s with
  | nil => exact hs
  | cons n ns ih =>
    rw [List.foldl_cons]
    refine ih ?_
    split
    · exact lanesConsistent_setSignal hs n
    · exact hs

/-! ### The end of a beat -/

/-- The results of a beat keep the agreement and the beat in progress. -/
theorem keptByResults_lanesFit (l : LaneId) (own : LaneId → Bool) : KeptByResults l fun t => t.LanesFit own where
  updLane hs hf := (sameCores_updLane _ l _ fun x => (hf x).1).lanesFit hs
  retarget r page hs := (sameCores_retarget _ l r page).lanesFit hs
  release r hs := (sameCores_release _ l r).lanesFit hs
  dropCopy hs := (sameCores_dropCopy _ l).lanesFit hs
  pushed _ _ hs := hs
  setSignal n hs := lanesFit_setSignal hs n
  clearSignal _ hs := hs

theorem keptByResults_beat (l : LaneId) (beat : Option Beat) : KeptByResults l fun t => t.beat = beat where
  updLane hs _ := hs
  retarget r page hs := (onlyLane_retarget _ l r page).beat.trans hs
  release r hs := (onlyLane_release _ l r).beat.trans hs
  dropCopy hs := (onlyLane_dropCopy _ l).beat.trans hs
  pushed _ _ hs := hs
  setSignal n hs := (onlyLanes_setSignal _ n).beat.trans hs
  clearSignal _ hs := hs

theorem onlyLane_takeDeferred (s : State) (l : LaneId) (held : Option Deferred) (step : Bool) (v : Verdict) :
    OnlyLane l s (takeDeferred s l held step v) := by
  unfold takeDeferred
  split
  · exact onlyLane_applyVerdict s l step v
  · exact onlyLane_clearLane s l _ _
  · exact (onlyLane_applyVerdict s l step v).trans (onlyLane_haltNow _ l)
  · split
    · exact onlyLane_applyVerdict s l step _
    · exact onlyLane_applyVerdict s l step _
    · exact onlyLane_enterFaulted s l _

/-- The deferred request taken against a verdict leaves a bare lane consistent (R34). -/
theorem fits_takeDeferred {s : State} {l : LaneId} {stop : Prop} {v : Verdict} (h : (s.lane l).Bare)
    (hv : v.Allowed stop) (held : Option Deferred) (step : Bool) :
    ((takeDeferred s l held step v).lane l).Fits false := by
  unfold takeDeferred
  split
  · exact fits_applyVerdict h hv step
  · exact fits_clearLane s l (.inr rfl) _
  · exact fits_haltNow (fits_applyVerdict h hv step)
  · split
    · exact fits_enterFaulted s l _
    · exact fits_applyVerdict h hv step
    · exact fits_enterFaulted s l _

/-- The results of a beat whose word accesses have all been made (R72). -/
def State.results (s : State) (b : Beat) : State × Verdict := beatResult (s.taken b) b.lane b.work

/-- A beat end takes the beat's results, counts it, and takes the deferred request against the verdict (R72, R34). -/
theorem beatEnd_over {s : State} {b : Beat} (hb : s.beat = some b) (hover : b.work.over = true) :
    beatEnd s = takeDeferred (countBeat (s.results b).1 b.lane) b.lane (s.lane b.lane).deferred b.step (s.results b).2 := by
  simp only [beatEnd, hb, hover, if_true]
  rfl

/-- A lane that fits within its beat is bare once the beat is counted. -/
theorem Lane.Fits.bare_counted {x : Lane} (h : x.Fits true) : x.counted.Bare := by
  have hdone : x.counted.Fits false := ⟨h.1, by simp, by simp [Lane.counted]⟩
  exact (hdone.bare_of_active (h.2.1 rfl)).1

theorem lanesFit_taken {s : State} {own : LaneId → Bool} (hs : s.LanesFit own) (b : Beat) : (s.taken b).LanesFit own :=
  (leaves_taken s b).lanesFit (s := { s with beat := none }) hs (by rw [State.taken_lane]; exact (hs b.lane).congr rfl)

/-- The end of a beat whose results agree leaves every lane outside a beat and consistent. -/
theorem lanesConsistent_conclusion {u : State} {l : LaneId} {stop : Prop} {v : Verdict}
    (hu : u.LanesFit fun k => l == k) (hbeat : u.beat = none) (hv : v.Allowed stop) (held : Option Deferred) (step : Bool) :
    (takeDeferred (countBeat u l) l held step v).lanesConsistent := by
  have hcounted := leaves_countBeat (s := u) (l := l) rfl
  have hdone := hcounted.toOnlyLane.trans (onlyLane_takeDeferred (countBeat u l) l held step v)
  have hown : (u.lane l).Fits true := by simpa using hu l
  refine lanesConsistent_of_no_beat (hdone.beat.trans hbeat) fun k => ?_
  by_cases e : k = l
  · rw [e]
    exact fits_takeDeferred (hcounted.lane ▸ hown.bare_counted) hv held step
  · have hother : (l == k) = false := beq_eq_false_iff_ne.mpr (Ne.symm e)
    rw [hdone.others k e, ← hother]
    exact hu k

theorem lanesConsistent_beatEnd {s : State} (hs : s.lanesConsistent) : (beatEnd s).lanesConsistent := by
  cases hb : s.beat with
  | none => simpa [beatEnd, hb] using hs
  | some b =>
    cases hover : b.work.over with
    | false => simpa [beatEnd, hb, hover] using hs
    | true =>
      have hfit : s.LanesFit fun k => b.lane == k := by
        have hown : s.ownBeat = fun k => b.lane == k := by
          funext k
          simp [State.ownBeat, hb]
        exact hown ▸ State.lanesConsistent_iff.mp hs
      have hresults := (keptByResults_lanesFit b.lane _).beatResult (lanesFit_taken hfit b) b.work
      have hbeat := (keptByResults_beat b.lane none).beatResult (leaves_taken s b).beat b.work
      rw [beatEnd_over hb hover]
      exact lanesConsistent_conclusion hresults.state hbeat.state hresults.verdict _ _

end Sys2Proof.Machine
end

section
/-! SUPPORT. Releases, faults, the slot tick, lookups, ports and lane commands keep the lane contexts in agreement. -/

namespace Sys2Proof.Machine

/-! ### Folds over lanes -/

/-- A fold of operations that keep the agreement keeps it. -/
theorem lanesConsistent_foldl {α : Type} {f : State → α → State}
    (hf : ∀ s a, s.lanesConsistent → (f s a).lanesConsistent) :
    ∀ (as : List α) {s : State}, s.lanesConsistent → (as.foldl f s).lanesConsistent
  | [], _, hs => hs
  | a :: as, s, hs => lanesConsistent_foldl hf as (hf s a hs)

theorem State.lanesConsistent.fits {s : State} (hs : s.lanesConsistent) (l : LaneId) : (s.lane l).Fits (s.ownBeat l) :=
  State.lanesConsistent_iff.mp hs l

/-- An operation on one lane that leaves it as one outside its beat, where it was outside, keeps the agreement. -/
theorem OnlyLane.lanesConsistent_of_outside {l : LaneId} {s t : State} (h : OnlyLane l s t) (hs : s.lanesConsistent)
    (hown : s.ownBeat l = false) (hl : (t.lane l).Fits false) : t.lanesConsistent :=
  h.lanesConsistent hs (hown ▸ hl)

/-- A lane that is not ACTIVE is outside its beat. -/
theorem State.lanesConsistent.outside {s : State} (hs : s.lanesConsistent) {l : LaneId}
    (hstate : (s.lane l).state ≠ .active) : s.ownBeat l = false :=
  (hs.fits l).not_inBeat hstate

/-! ### Releases of block reasons -/

theorem fits_removeReason_blocked {s : State} {l : LaneId} {remove : Reasons → Reasons}
    (hstate : (s.lane l).state = .blocked) (hbare : ({ s.lane l with portWait := none } : Lane).Bare)
    (hport : (s.lane l).portWait.isSome = (remove (s.lane l).reasons).port) :
    ((removeReason s l remove).lane l).Fits false := by
  simp only [removeReason, hstate]
  split
  · next e => exact fits_settle hbare (by rw [hport, e])
  · next e =>
    rw [State.lane_updLane_same]
    exact Lane.fits_blocked { hbare with } hstate e hport

theorem fits_removeReason_held {s : State} {l : LaneId} {remove : Reasons → Reasons} {w : Option PortWait}
    {held : Reasons} (hparts : ({ s.lane l with portWait := w } : Lane).HaltedParts)
    (hresume : (s.lane l).resume = some (.blocked held)) (hport : (s.lane l).portWait.isSome = (remove held).port) :
    ((removeReason s l remove).lane l).Fits false := by
  have hstate : (s.lane l).state = .halted := hparts.state
  have hwait : (s.lane l).wait = none := by
    have hiff := hparts.wait
    simpa [hresume] using hiff
  simp only [removeReason, hstate, hresume]
  rw [State.lane_updLane_same]
  refine Lane.HaltedParts.fits
    ⟨hparts.bare, hstate, hparts.reasons, hparts.haltReason, rfl, ?_, ?_, ?_, hparts.credit⟩
  · split <;> simp_all
  · split
    · next e => simp [hport, e, Resume.held]
    · exact hport
  · split <;> simp [hwait]

/-- A lane that holds neither block reasons nor held reasons loses none. -/
theorem removeReason_other {s : State} {l : LaneId} (remove : Reasons → Reasons) (hstate : (s.lane l).state ≠ .blocked)
    (hresume : (s.lane l).state = .halted → ∀ held, (s.lane l).resume ≠ some (.blocked held)) :
    removeReason s l remove = s := by
  unfold removeReason
  dsimp only
  split
  · contradiction
  · next e =>
    split
    · next held hheld => exact absurd hheld (hresume e held)
    · rfl
  · rfl

/-- The removal of a reason other than PORT keeps the agreement (R23, R38). -/
theorem lanesConsistent_removeReason {s : State} (hs : s.lanesConsistent) (l : LaneId) {remove : Reasons → Reasons}
    (hkeep : ∀ h, (remove h).port = h.port) : (removeReason s l remove).lanesConsistent := by
  have honly := onlyLane_removeReason s l remove
  by_cases hblocked : (s.lane l).state = .blocked
  · obtain ⟨hbare, -, hport⟩ := (hs.fits l).bare_of_blocked hblocked
    exact honly.lanesConsistent_of_outside hs (hs.outside (by simp [hblocked]))
      (fits_removeReason_blocked hblocked hbare (by rw [hport, hkeep]))
  · by_cases hhalted : (s.lane l).state = .halted ∧ ∃ held, (s.lane l).resume = some (.blocked held)
    · obtain ⟨hstate, held, hresume⟩ := hhalted
      have hparts := (hs.fits l).halted hstate
      refine honly.lanesConsistent_of_outside hs (hs.outside (by simp [hstate]))
        (fits_removeReason_held (w := (s.lane l).portWait) hparts hresume ?_)
      rw [hparts.port, hresume, hkeep]
      rfl
    · rw [removeReason_other remove hblocked fun hstate held e => hhalted ⟨hstate, held, e⟩]
      exact hs

/-- The end of a port wait with the removal of PORT keeps the agreement (R156). -/
theorem lanesConsistent_releasePort {s : State} (hs : s.lanesConsistent) {l : LaneId}
    (hwait : (s.lane l).portWait.isSome = true) :
    (removeReason (s.updLane l fun x => { x with portWait := none }) l fun h => { h with port := false }).lanesConsistent := by
  have honly := (onlyLane_updLane l s fun x => { x with portWait := none }).trans
    (onlyLane_removeReason _ l fun h => { h with port := false })
  have hlane := State.lane_updLane_same s l fun x => { x with portWait := none }
  obtain ⟨⟨-, hreasons, -, hresume, -, hport, -⟩, -, -⟩ := hs.fits l
  rcases hport.mp hwait with hp | hp
  · have hblocked : (s.lane l).state = .blocked := hreasons.mp fun e => by simp [e] at hp
    obtain ⟨hbare, -, -⟩ := (hs.fits l).bare_of_blocked hblocked
    refine honly.lanesConsistent_of_outside hs (hs.outside (by simp [hblocked])) (fits_removeReason_blocked ?_ ?_ ?_) <;>
      rw [hlane]
    · exact hblocked
    · exact hbare
    · rfl
  · obtain ⟨held, hheld⟩ : ∃ held, (s.lane l).resume = some (.blocked held) := by
      unfold Resume.held at hp
      split at hp
      · next held e => exact ⟨held, e⟩
      · simp at hp
    have hhalted : (s.lane l).state = .halted := hresume.mp (by rw [hheld]; rfl)
    refine honly.lanesConsistent_of_outside hs (hs.outside (by simp [hhalted]))
      (fits_removeReason_held (w := (s.lane l).portWait) (held := held) ?_ ?_ ?_) <;> rw [hlane]
    · exact (hs.fits l).halted hhalted
    · exact hheld
    · rfl

theorem lanesConsistent_releaseQueue {s : State} (hs : s.lanesConsistent) : (releaseQueue s).lanesConsistent := by
  unfold releaseQueue
  refine lanesConsistent_foldl (fun t l ht => ?_) allLanes hs
  split
  · exact lanesConsistent_removeReason ht l fun _ => rfl
  · exact ht

theorem lanesConsistent_releaseLanes {s : State} (hs : s.lanesConsistent) (p : PortId) (dir : Direction) :
    (releaseLanes s p dir).lanesConsistent := by
  unfold releaseLanes
  refine lanesConsistent_foldl (fun t l ht => ?_) allLanes hs
  split
  · next e => exact lanesConsistent_releasePort ht (by rw [e]; rfl)
  · exact ht

/-! ### Asynchronous faults -/

theorem lanesConsistent_enterFaulted {s : State} (hs : s.lanesConsistent) {l : LaneId} (hown : s.ownBeat l = false)
    (f : FaultRecord) : (enterFaulted s l f).lanesConsistent :=
  (onlyLane_enterFaulted s l f).lanesConsistent_of_outside hs hown (fits_enterFaulted s l f)

/-- A request deferred during the lane's own beat keeps the agreement (R33). -/
theorem lanesConsistent_defer {s : State} (hs : s.lanesConsistent) {l : LaneId} (hown : s.ownBeat l = true)
    (held : Lane → Option Deferred) : (s.updLane l fun x => { x with deferred := held x }).lanesConsistent := by
  refine (onlyLane_updLane l s _).lanesConsistent hs ?_
  rw [State.lane_updLane_same]
  exact ⟨(hs.fits l).1, (hs.fits l).2.1, fun _ => hown⟩

theorem lanesConsistent_asyncFault {s : State} (hs : s.lanesConsistent) (l : LaneId) (cause : FaultCause) (role : Role) :
    (asyncFault s l cause role).lanesConsistent := by
  unfold asyncFault
  dsimp only
  split
  case h_1 =>
    split
    · next hown => exact lanesConsistent_defer hs hown fun x => deferFault x.deferred cause role
    · next hown => exact lanesConsistent_enterFaulted hs (by simpa using hown) _
  case h_2 e => exact lanesConsistent_enterFaulted hs (hs.outside (by simp [e])) _
  case h_3 e => exact lanesConsistent_enterFaulted hs (hs.outside (by simp [e])) _
  case h_4 e => exact lanesConsistent_enterFaulted hs (hs.outside (by simp [e])) _
  case h_5 => exact hs

theorem lanesConsistent_faultWaiters {s : State} (hs : s.lanesConsistent) (p : PortId) (dir : Direction) (role : Role) :
    (faultWaiters s p dir role).lanesConsistent := by
  unfold faultWaiters
  refine lanesConsistent_foldl (fun t l ht => ?_) allLanes hs
  split
  · exact lanesConsistent_asyncFault ht l .portOff role
  · exact ht

/-! ### Lookups and shootdowns -/

theorem SameCores.lanesConsistent_of_beat {s t : State} (h : SameCores s t) (hbeat : t.beat = s.beat)
    (hs : s.lanesConsistent) : t.lanesConsistent :=
  h.lanesConsistent (State.ownBeat_congr hbeat) hs

theorem lanesConsistent_setCursor {s : State} (hs : s.lanesConsistent) (l : LaneId) (r : Role) (c : Cursor) :
    (s.updLane l fun x => x.setCursor r c).lanesConsistent :=
  (sameCores_updLane s l _ fun x => Lane.core_setCursor x r c).lanesConsistent_of_beat rfl hs

theorem lanesConsistent_lookupStart {s : State} (hs : s.lanesConsistent) : (lookupStart s).lanesConsistent := by
  unfold lookupStart
  split
  · exact lanesConsistent_setCursor hs _ _ _
  · exact hs

theorem lanesConsistent_takeMapping {s : State} (hs : s.lanesConsistent) (l : LaneId) :
    (takeMapping s l).lanesConsistent := by
  unfold takeMapping
  split
  · exact lanesConsistent_removeReason hs l fun _ => rfl
  · exact hs

theorem lanesConsistent_failLookup {s : State} (hs : s.lanesConsistent) (l : LaneId) (r : Role) (cause : FaultCause) :
    (failLookup s l r cause).lanesConsistent := by
  have hfault := lanesConsistent_asyncFault hs l cause r
  unfold failLookup
  dsimp only
  split
  · exact (sameCores_release _ l r).lanesConsistent_of_beat (onlyLane_release _ l r).beat hfault
  · exact hfault

theorem lanesConsistent_lookupCompletion {s : State} (hs : s.lanesConsistent) : (lookupCompletion s).lanesConsistent := by
  have hfree : ({ s with map := { s.map with lookup := none } } : State).lanesConsistent := hs
  unfold lookupCompletion
  dsimp only
  generalize ({ s with map := { s.map with lookup := none } } : State) = free at hfree
  split
  · exact hs
  · split
    · exact hfree
    · exact (sameCores_enqueue _ _ _ _).lanesConsistent_of_beat rfl hfree
    · split
      · exact lanesConsistent_takeMapping (lanesConsistent_setCursor hfree _ _ _) _
      · exact lanesConsistent_failLookup hfree _ _ _

theorem lanesConsistent_loseMapping {s : State} (hs : s.lanesConsistent) (l : LaneId) :
    (loseMapping s l).lanesConsistent := by
  unfold loseMapping
  dsimp only
  split
  · exact hs
  · split
    case h_1 e =>
      split
      · exact hs
      · next hown =>
        have hoff : s.ownBeat l = false := by simpa using hown
        obtain ⟨hbare, -⟩ := (hoff ▸ hs.fits l).bare_of_active e
        exact (onlyLane_settle s l _).lanesConsistent_of_outside hs hoff
          (fits_settle { hbare with portWait := rfl } (by rw [hbare.portWait]; rfl))
    case h_2 e =>
      obtain ⟨hbare, -, hport⟩ := (hs.fits l).bare_of_blocked e
      refine (onlyLane_updLane l s _).lanesConsistent_of_outside hs (hs.outside (by simp [e])) ?_
      rw [State.lane_updLane_same]
      exact Lane.fits_blocked { hbare with } e (by simp [Reasons.empty]) hport
    case h_3 => exact hs

theorem lanesConsistent_shootdown {s : State} (hs : s.lanesConsistent) (page : BitVec 7) :
    (shootdown s page).lanesConsistent := by
  have hstale : (staleOnShootdown s page).lanesConsistent := by
    unfold staleOnShootdown
    dsimp only
    split
    · split <;> exact hs
    · exact hs
  unfold shootdown
  refine lanesConsistent_foldl (fun t l ht => lanesConsistent_foldl (fun u r hu => ?_) allRoles ht) allLanes hstale
  unfold shootCursor
  dsimp only
  split
  · exact lanesConsistent_loseMapping ((sameCores_enqueue u l r page).lanesConsistent_of_beat rfl hu) l
  · exact hu

/-! ### Frames and port configuration -/

theorem lanesConsistent_updPort {s : State} (hs : s.lanesConsistent) (p : PortId) (f : Port → Port) :
    (s.updPort p f).lanesConsistent := hs

theorem lanesConsistent_frameStartTransmit {s : State} (hs : s.lanesConsistent) (p : PortId) :
    (frameStartTransmit s p).lanesConsistent := by
  unfold frameStartTransmit
  dsimp only
  split
  · exact hs
  · split
    · refine lanesConsistent_releaseLanes ?_ p .tx
      split
      · exact lanesConsistent_setSignal (lanesConsistent_updPort hs _ _) _
      · exact hs
    · exact hs

theorem lanesConsistent_frameStart {s : State} (hs : s.lanesConsistent) (p : PortId) :
    (frameStart s p).lanesConsistent := by
  unfold frameStart
  dsimp only
  refine lanesConsistent_frameStartTransmit ?_ p
  split
  · unfold frameError
    split <;> exact hs
  · exact hs

theorem lanesConsistent_offerReceived {s : State} (hs : s.lanesConsistent) (p : PortId) (w : Word) :
    (offerReceived s p w).lanesConsistent := by
  unfold offerReceived
  dsimp only
  split
  · exact hs
  · split
    · exact hs
    · refine lanesConsistent_releaseLanes ?_ p .rx
      split
      · exact lanesConsistent_setSignal (lanesConsistent_updPort hs _ _) _
      · exact hs

theorem lanesConsistent_frameEnd {s : State} (hs : s.lanesConsistent) (p : PortId) (sdi : Bool) :
    (frameEnd s p sdi).lanesConsistent := by
  unfold frameEnd
  dsimp only
  split
  · exact lanesConsistent_offerReceived (lanesConsistent_updPort hs p _) p _
  · exact hs

theorem lanesConsistent_sckPeriod {s : State} (hs : s.lanesConsistent) (p : PortId) (sdi : Bool) :
    (sckPeriod s p sdi).lanesConsistent := by
  unfold sckPeriod
  dsimp only
  split
  · exact hs
  · split
    · exact hs
    · exact lanesConsistent_frameEnd hs p sdi

/-- A change of the beat's work or progress leaves its lane. -/
theorem lanesConsistent_withBeat {s : State} (hs : s.lanesConsistent) {b c : Beat} (hb : s.beat = some b)
    (hlane : c.lane = b.lane) : ({ s with beat := some c } : State).lanesConsistent := by
  have hown : ({ s with beat := some c } : State).ownBeat = s.ownBeat := by
    funext k
    simp [State.ownBeat, hb, hlane]
  have hsame : SameCores s { s with beat := some c } := sameCores_of_lanes rfl
  exact hsame.lanesConsistent hown hs

theorem lanesConsistent_discardHeld {s : State} (hs : s.lanesConsistent) (p : PortId) :
    (discardHeld s p).lanesConsistent := by
  unfold discardHeld
  split
  · next hb =>
    split
    · split
      · exact lanesConsistent_withBeat hs hb rfl
      · exact hs
    · exact hs
  · exact hs

theorem lanesConsistent_disableRx {s : State} (hs : s.lanesConsistent) (p : PortId) : (disableRx s p).lanesConsistent := by
  unfold disableRx
  exact lanesConsistent_faultWaiters (lanesConsistent_updPort hs p _) p .rx .src

theorem lanesConsistent_disableTx {s : State} (hs : s.lanesConsistent) (p : PortId) : (disableTx s p).lanesConsistent := by
  unfold disableTx
  exact lanesConsistent_faultWaiters (lanesConsistent_discardHeld (lanesConsistent_updPort hs p _) p) p .tx .dst

theorem lanesConsistent_writePortConfig {s : State} (hs : s.lanesConsistent) (p : PortId) (v : Half) :
    (writePortConfig s p v).lanesConsistent := by
  unfold writePortConfig
  dsimp only
  generalize hc : s.updPort p _ = c
  have hset : c.lanesConsistent := hc ▸ lanesConsistent_updPort hs p _
  split
  · refine lanesConsistent_disableTx ?_ p
    split
    · exact lanesConsistent_disableRx hset p
    · exact hset
  · split
    · exact lanesConsistent_disableRx hset p
    · exact hset

end Sys2Proof.Machine
end

section
/-! CERTIFICATE. Every step keeps the lane contexts in agreement with their states (R20, R21, R23, R33, R38, R41, R60). -/

namespace Sys2Proof.Machine

/-! ### The slot tick -/

theorem State.ready_iff {s : State} {l : LaneId} :
    s.ready l = true ↔ (s.lane l).state = .active ∧ (s.lane l).neededMapped = true ∧ s.ownBeat l = false := by
  simp [State.ready, and_assoc]

/-- A beat that begins for an ACTIVE lane while none is in progress keeps the agreement (R59). -/
theorem lanesConsistent_beginBeat {s : State} (hs : s.lanesConsistent) {l : LaneId} (hnone : s.beat = none)
    (hactive : (s.lane l).state = .active) : (beginBeat s l).lanesConsistent := by
  unfold beginBeat
  dsimp only
  split
  · exact hs
  · refine ⟨hs.1, fun b hb => ?_, fun k hk => ?_⟩
    · obtain rfl := Option.some.inj hb
      exact hactive
    · have hown := hs.2.2 k hk
      simp [State.ownBeat, hnone] at hown

/-- The spare assignment by credit chooses a READY lane (R55). -/
theorem creditChoice_ready {s : State} {l : LaneId} (h : creditChoice s = some l) : s.ready l = true := by
  have hfold : ∀ (ls : List LaneId) (best : Option LaneId), (∀ k, best = some k → s.ready k = true) →
      ∀ k, ls.foldl (fun best l =>
        if s.ready l && decide (0 < (s.lane l).credit) then
          match best with
          | none => some l
          | some k => if (s.lane k).credit < (s.lane l).credit then some l else some k
        else best) best = some k → s.ready k = true := by
    intro ls
    induction ls with
    | nil => exact fun best hbest => hbest
    | cons j ls ih =>
      intro best hbest
      rw [List.foldl_cons]
      refine ih _ fun k hk => ?_
      split at hk
      · next hj =>
        have hready : s.ready j = true := by simp_all
        split at hk
        · exact Option.some.inj hk ▸ hready
        · split at hk
          · exact Option.some.inj hk ▸ hready
          · exact hbest k hk
      · exact hbest k hk
  exact hfold allLanes none (by simp) l h

/-- A credit taken from or given to a lane that may hold one, up to 3, keeps the agreement (R54, R55, R60). -/
theorem lanesConsistent_credit {s : State} (hs : s.lanesConsistent) {l : LaneId}
    (hstate : (s.lane l).state = .active ∨ (s.lane l).state = .blocked) {credit : Lane → Nat} {missed : Lane → Half}
    (hcredit : credit (s.lane l) ≤ 3) :
    (s.updLane l fun x => { x with credit := credit x, missed := missed x }).lanesConsistent := by
  refine (onlyLane_updLane l s _).lanesConsistent hs ?_
  rw [State.lane_updLane_same]
  obtain ⟨⟨hfault, hreasons, hhalt, hresume, hheld, hport, hwait, -, -⟩, hbeat, hdeferred⟩ := hs.fits l
  refine ⟨⟨hfault, hreasons, hhalt, hresume, hheld, hport, hwait, hcredit, fun ha hb => ?_⟩, hbeat, hdeferred⟩
  exact absurd hstate (not_or.mpr ⟨ha, hb⟩)

theorem lanesConsistent_spareAssignment {s : State} (hs : s.lanesConsistent) (hnone : s.beat = none) :
    (spareAssignment s).lanesConsistent := by
  unfold spareAssignment
  split
  · next l h =>
    have hactive := (State.ready_iff.mp (creditChoice_ready h)).1
    obtain ⟨⟨-, -, -, -, -, -, -, hcredit, -⟩, -, -⟩ := hs.fits l
    refine lanesConsistent_beginBeat (lanesConsistent_credit hs (.inl hactive) (missed := Lane.missed) (by omega)) hnone ?_
    rw [State.lane_updLane_same]
    exact hactive
  · split
    · next l h =>
      have hready := List.find?_some h
      simp only [Bool.and_eq_true] at hready
      exact lanesConsistent_beginBeat (s := { s with wheel := { s.wheel with rotation := l } }) hs hnone
        (State.ready_iff.mp hready.1).1
    · exact hs

theorem lanesConsistent_decideSlot {s : State} (hs : s.lanesConsistent) : (decideSlot s).lanesConsistent := by
  unfold decideSlot
  split
  · exact hs
  · next hbeat =>
    have hnone : s.beat = none := by simpa using hbeat
    split
    · split
      · next hready => exact lanesConsistent_beginBeat hs hnone (State.ready_iff.mp hready).1
      · refine lanesConsistent_spareAssignment ?_ ?_
        · unfold gainCredit
          split
          · next hstate => exact lanesConsistent_credit hs (.inr hstate) (by omega)
          · exact hs
        · unfold gainCredit
          split <;> exact hnone
    · exact lanesConsistent_spareAssignment hs hnone

/-- The timeout of a WAITING lane keeps the agreement (R127). -/
theorem lanesConsistent_takeTimeout {s : State} (hs : s.lanesConsistent) {l : LaneId}
    (hstate : (s.lane l).state = .waiting) (w : Wait) : (takeTimeout s l w).lanesConsistent := by
  have hcomplete : ∀ {t : State}, t.lanesConsistent → (t.lane l).state = .waiting → (completeWait t l).lanesConsistent :=
    fun ht hwaiting => (onlyLane_completeWait _ l).lanesConsistent_of_outside ht (ht.outside (by simp [hwaiting]))
      (fits_completeWait ((ht.fits l).bare_of_waiting hwaiting).1)
  unfold takeTimeout
  split
  · rcases push_cases s l .timeout w.tag with e | e <;> rw [e] <;> dsimp only
    · exact hcomplete (t := s.pushed l .timeout w.tag) hs hstate
    · obtain ⟨hbare, -, -, -⟩ := (hs.fits l).bare_of_waiting hstate
      refine ((onlyLane_updLane l s _).trans (onlyLane_settle _ l _)).lanesConsistent_of_outside hs
        (hs.outside (by simp [hstate])) (fits_settle ?_ ?_) <;> rw [State.lane_updLane_same]
      · exact { hbare with portWait := rfl }
      · rw [show (s.lane l).portWait = none from hbare.portWait]
        rfl
  · exact hcomplete hs hstate

theorem countedWait_some {x : Lane} {w : Wait} (h : countedWait x = some w) :
    x.state = .waiting ∧ x.wait = some w ∧ w.timeoutLeft ≠ 0 := by
  unfold countedWait at h
  split at h
  · next hstate hwait =>
    split at h
    · contradiction
    · next hleft =>
      obtain rfl := Option.some.inj h
      exact ⟨hstate, hwait, hleft⟩
  · contradiction

theorem lanesConsistent_countTimeouts {s : State} (hs : s.lanesConsistent) : (countTimeouts s).lanesConsistent := by
  unfold countTimeouts
  refine lanesConsistent_foldl (fun t l ht => ?_) allLanes hs
  unfold countTimeout
  split
  · next w h =>
    obtain ⟨hstate, -, -⟩ := countedWait_some h
    split
    · exact lanesConsistent_takeTimeout ht hstate w
    · obtain ⟨hbare, hreasons, -, hcredit⟩ := (ht.fits l).bare_of_waiting hstate
      refine (onlyLane_updLane l t _).lanesConsistent_of_outside ht (ht.outside (by simp [hstate])) ?_
      rw [State.lane_updLane_same]
      exact Lane.fits_waiting { hbare with } hstate hreasons rfl hcredit
  · exact ht

theorem lanesConsistent_slotTick {s : State} (hs : s.lanesConsistent) : (slotTick s).lanesConsistent := by
  unfold slotTick
  split
  · refine lanesConsistent_countTimeouts ?_
    have hdecided := lanesConsistent_decideSlot hs
    unfold advanceWheel
    dsimp only
    split
    · split <;> exact hdecided
    · exact hdecided
  · exact hs

theorem lanesConsistent_timebaseTick {s : State} (hs : s.lanesConsistent) : (timebaseTick s).lanesConsistent := by
  unfold timebaseTick
  split
  · split
    · exact lanesConsistent_slotTick hs
    · exact hs
  · exact hs

/-! ### The word accesses of a beat -/

theorem lanesConsistent_recordLoad {s : State} (hs : s.lanesConsistent) (n : Nat) : (recordLoad s n).lanesConsistent := by
  unfold recordLoad
  split
  · next hb =>
    split
    · exact lanesConsistent_withBeat hs hb rfl
    · exact hs
  · exact hs

theorem lanesConsistent_cellRead {s : State} (hs : s.lanesConsistent) : (cellRead s).lanesConsistent := by
  unfold cellRead
  split
  · next hb =>
    split
    · split
      · exact lanesConsistent_withBeat hs hb rfl
      · exact hs
    · exact hs
  · exact hs

theorem lanesConsistent_wordRead {s : State} (hs : s.lanesConsistent) : (wordRead s).lanesConsistent := by
  unfold wordRead
  split
  · next hb =>
    split
    · split
      · exact lanesConsistent_withBeat hs hb rfl
      · dsimp only
        rw [readSource_frame]
        exact lanesConsistent_withBeat hs hb rfl
    · exact hs
  · exact hs

theorem lanesConsistent_wordWrite {s : State} (hs : s.lanesConsistent) : (wordWrite s).lanesConsistent := by
  unfold wordWrite
  split
  · next hb =>
    split
    · dsimp only
      rw [writeDestination_frame]
      exact lanesConsistent_withBeat hs hb rfl
    · exact hs
  · exact hs

/-! ### Lane commands -/

theorem lanesConsistent_clearLane {s : State} (hs : s.lanesConsistent) {l : LaneId} (hown : s.ownBeat l = false)
    {into : LaneState} (hinto : into = .off ∨ into = .idle) (config : LaneConfig) :
    (clearLane s l into config).lanesConsistent :=
  (onlyLane_clearLane s l into config).lanesConsistent_of_outside hs hown (fits_clearLane s l hinto config)

theorem lanesConsistent_enableLane {s : State} (hs : s.lanesConsistent) (l : LaneId) :
    (enableLane s l).1.lanesConsistent := by
  unfold enableLane
  split
  · next hstate =>
    obtain ⟨hbare, hreasons, hcredit⟩ := (hs.fits l).bare_of_resting (.inl hstate)
    refine (onlyLane_updLane l s fun x => { x with state := .idle }).lanesConsistent_of_outside hs
      (hs.outside (by simp [hstate])) ?_
    rw [State.lane_updLane_same]
    exact Lane.Bare.fits_resting { hbare with } (.inr rfl) hreasons hcredit
  · exact hs

theorem lanesConsistent_disableLane {s : State} (hs : s.lanesConsistent) (l : LaneId) :
    (disableLane s l).1.lanesConsistent := by
  unfold disableLane
  split <;> dsimp only
  case h_1 e => exact lanesConsistent_clearLane hs (hs.outside (by simp [e])) (.inl rfl) _
  case h_2 e => exact lanesConsistent_clearLane hs (hs.outside (by simp [e])) (.inl rfl) _
  case h_3 e => exact lanesConsistent_clearLane hs (hs.outside (by simp [e])) (.inl rfl) _
  case h_4 => exact hs

/-- An IDLE lane that gets its first record pointer and becomes BLOCKED with MAP keeps the agreement (R29). -/
theorem lanesConsistent_enterBlocked {s : State} (hs : s.lanesConsistent) {l : LaneId} (hstate : (s.lane l).state = .idle)
    {f : Lane → Lane} (page : BitVec 7) (hf : ∀ x, (f x).core = x.core := by exact fun _ => rfl) :
    ((retarget (s.updLane l f) l .walk page).updLane l fun x =>
      { x with state := .blocked, reasons := ⟨true, false, false⟩ }).lanesConsistent := by
  have honly := (onlyLane_updLane l s f).trans (onlyLane_retarget _ l .walk page)
  refine (honly.trans (onlyLane_updLane l _ _)).lanesConsistent_of_outside hs (hs.outside (by simp [hstate])) ?_
  obtain ⟨hbare, -, -⟩ := (hs.fits l).bare_of_resting (.inr hstate)
  have hkept := hbare.congr (((sameCores_updLane s l f hf).trans (sameCores_retarget _ l .walk page)) l)
  rw [State.lane_updLane_same]
  exact Lane.fits_blocked { hkept with portWait := rfl } rfl (by simp [Reasons.empty]) (by simp [hkept.portWait])

theorem lanesConsistent_startLane {s : State} (hs : s.lanesConsistent) (l : LaneId) :
    (startLane s l).1.lanesConsistent := by
  unfold startLane
  split
  case h_2 => exact hs
  case h_1 hstate =>
    dsimp only
    split
    · exact hs
    · split
      · exact hs
      · exact lanesConsistent_enterBlocked hs hstate _

theorem lanesConsistent_haltNow {s : State} (hs : s.lanesConsistent) {l : LaneId} (hown : s.ownBeat l = false) :
    (haltNow s l).lanesConsistent :=
  (onlyLane_haltNow s l).lanesConsistent_of_outside hs hown (fits_haltNow (hown ▸ hs.fits l))

theorem lanesConsistent_haltLane {s : State} (hs : s.lanesConsistent) (l : LaneId) :
    (haltLane s l).1.lanesConsistent := by
  unfold haltLane
  split
  · exact hs
  · split
    case h_1 =>
      split
      · next hown => exact lanesConsistent_defer hs hown fun _ => some .halt
      · next hown => exact lanesConsistent_haltNow hs (by simpa using hown)
    case h_2 e => exact lanesConsistent_haltNow hs (hs.outside (by simp [e]))
    case h_3 e => exact lanesConsistent_haltNow hs (hs.outside (by simp [e]))
    case h_4 => exact hs

theorem lanesConsistent_abortLane {s : State} (hs : s.lanesConsistent) (l : LaneId) :
    (abortLane s l).1.lanesConsistent := by
  unfold abortLane
  split
  case h_1 => exact hs
  case h_2 =>
    split <;> dsimp only
    · next hown => exact lanesConsistent_defer hs hown fun _ => some .abort
    · next hown => exact lanesConsistent_clearLane hs (by simpa using hown) (.inr rfl) _
  case h_3 e =>
    dsimp only
    exact lanesConsistent_clearLane hs (hs.outside e) (.inr rfl) _

/-- A satisfied wait changes the signals only (R78). -/
theorem satisfyWait_signals {s t : State} {mask : Half} {consume : Bool} (h : satisfyWait s mask consume = some t) :
    ∃ signals, t = s.withSignals signals := by
  unfold satisfyWait at h
  split at h
  · obtain rfl := Option.some.inj h
    split
    · exact ⟨_, rfl⟩
    · exact ⟨s.signals, rfl⟩
  · contradiction

/-- RESUME of a HALTED lane settles it on what its resume state and its wait say (R31). -/
theorem lanesConsistent_resumeHalted {s : State} (hs : s.lanesConsistent) {l : LaneId}
    (hstate : (s.lane l).state = .halted) : (resumeHalted s l).lanesConsistent := by
  have hown : s.ownBeat l = false := hs.outside (by simp [hstate])
  obtain ⟨hbare, -, hreasons, -, hresume, -, hport, hwait, hcredit⟩ := (hs.fits l).halted hstate
  have hdrop := onlyLane_updLane l s fun x => { x with haltReason := none, resume := none }
  have hlane := State.lane_updLane_same s l fun x => { x with haltReason := none, resume := none }
  unfold resumeHalted
  dsimp only
  generalize (s.updLane l fun x => { x with haltReason := none, resume := none }) = t at hdrop hlane
  split
  · next held _ e =>
    have hnone : (s.lane l).wait = none := by simpa [e] using hwait
    refine (hdrop.trans (onlyLane_settle t l _)).lanesConsistent_of_outside hs hown (fits_settle ?_ ?_) <;> rw [hlane]
    · exact { hbare with wait := hnone }
    · rw [e] at hport
      exact hport
  · next w e hw =>
    have hnone : (s.lane l).portWait = none := by simpa [e, Resume.held] using hport
    split
    · next u hu =>
      obtain ⟨signals, rfl⟩ := satisfyWait_signals hu
      have hdropped : OnlyLane l (s.withSignals signals) (t.withSignals signals) := { hdrop with signals := rfl }
      have hsame : (s.withSignals signals).lanesConsistent := hs
      refine (hdropped.trans (onlyLane_completeWait _ l)).lanesConsistent_of_outside hsame hown (fits_completeWait ?_)
      rw [show (t.withSignals signals).lane l = t.lane l from rfl, hlane]
      exact { hbare with portWait := hnone }
    · refine (hdrop.trans (onlyLane_updLane l t _)).lanesConsistent_of_outside hs hown ?_
      rw [State.lane_updLane_same, hlane]
      exact Lane.fits_waiting { hbare with portWait := hnone } rfl hreasons (by simp [hw]) hcredit
  · next hblocked hwaiting =>
    obtain ⟨r, hr⟩ := Option.isSome_iff_exists.mp hresume
    have hactive : r = .active := by
      cases r with
      | active => rfl
      | blocked held => exact (hblocked held hr).elim
      | waiting =>
        obtain ⟨w, hw⟩ := Option.isSome_iff_exists.mp (hwait.mpr hr)
        exact (hwaiting w hr hw).elim
    refine (hdrop.trans (onlyLane_settle t l _)).lanesConsistent_of_outside hs hown (fits_settle ?_ ?_) <;> rw [hlane]
    · exact { hbare with wait := by simpa [hr, hactive] using hwait }
    · rw [hport, hr, hactive]
      rfl

theorem lanesConsistent_resumeLane {s : State} (hs : s.lanesConsistent) (l : LaneId) :
    (resumeLane s l).1.lanesConsistent := by
  unfold resumeLane
  split
  · next hstate => exact lanesConsistent_resumeHalted hs hstate
  · exact hs

theorem lanesConsistent_laneCommand {s : State} (hs : s.lanesConsistent) (lane : BitVec 4)
    {command : State → LaneId → State × LaneResult} (hcommand : ∀ l, (command s l).1.lanesConsistent) :
    (laneCommand s lane command).lanesConsistent := by
  unfold laneCommand
  split
  · exact hcommand _
  · exact hs

theorem laneCommandOf_cases (code : BitVec 3) :
    laneCommandOf code = enableLane ∨ laneCommandOf code = disableLane ∨ laneCommandOf code = startLane ∨
      laneCommandOf code = haltLane ∨ laneCommandOf code = resumeLane ∨ laneCommandOf code = abortLane ∨
      laneCommandOf code = fun s _ => (s, .refusedArgument) := by
  rcases code_cases code with rfl | rfl | rfl | rfl | rfl | rfl | rfl | rfl <;> simp [laneCommandOf]

theorem lanesConsistent_laneCommandOf {s : State} (hs : s.lanesConsistent) (code : BitVec 3) (l : LaneId) :
    (laneCommandOf code s l).1.lanesConsistent := by
  rcases laneCommandOf_cases code with h | h | h | h | h | h | h <;> rw [h]
  · exact lanesConsistent_enableLane hs l
  · exact lanesConsistent_disableLane hs l
  · exact lanesConsistent_startLane hs l
  · exact lanesConsistent_haltLane hs l
  · exact lanesConsistent_resumeLane hs l
  · exact lanesConsistent_abortLane hs l
  · exact hs

/-- The redirect of a HALTED lane leaves it HALTED with resume state ACTIVE (R39). -/
theorem lanesConsistent_redirectLane {s : State} (hs : s.lanesConsistent) {l : LaneId}
    (hstate : (s.lane l).state = .halted) (pointer : LAddr) : (redirectLane s l pointer).lanesConsistent := by
  have hcores := (((sameCores_dropCopy s l).trans (sameCores_release _ l .hop)).trans
    (sameCores_release _ l .src)).trans (sameCores_release _ l .dst)
  have honly := (((onlyLane_dropCopy s l).trans (onlyLane_release _ l .hop)).trans
    (onlyLane_release _ l .src)).trans (onlyLane_release _ l .dst)
  unfold redirectLane
  dsimp only
  generalize release (release (release (dropCopy s l) l .hop) l .src) l .dst = t at hcores honly
  have hkept : (t.lane l).core.state = (s.lane l).core.state := congrArg Lane.state (hcores l)
  have hparts := ((hs.fits l).congr (hcores l)).halted (hkept.trans hstate)
  refine ((honly.trans (onlyLane_updLane l t _)).trans (onlyLane_retarget _ l .walk _)).lanesConsistent_of_outside hs
    (hs.outside (by simp [hstate])) (Lane.Fits.congr ?_ (sameCores_retarget _ l .walk _ l))
  rw [State.lane_updLane_same]
  exact Lane.HaltedParts.fits ⟨{ hparts.bare with }, hparts.state, hparts.reasons, rfl, rfl, by simp, rfl, by simp,
    hparts.credit⟩

theorem lanesConsistent_writeRecordPointer {s : State} (hs : s.lanesConsistent) (v : Half) :
    (writeRecordPointer s v).lanesConsistent := by
  unfold writeRecordPointer
  dsimp only
  split
  · next hstate =>
    split
    · exact lanesConsistent_redirectLane hs hstate _
    · exact hs
  · exact hs

theorem lanesConsistent_writeLaneConfig {s : State} (hs : s.lanesConsistent) (v : Half) :
    (writeLaneConfig s v).lanesConsistent :=
  (sameCores_updLane s _ _).lanesConsistent_of_beat rfl hs

/-! ### Global commands -/

/-- After a soft reset or the assertion of RESET every lane is OFF and no beat is in progress (R46). -/
theorem lanesConsistent_reset {s : State} (hlanes : s.lanes = Vector.replicate 12 .reset) (hbeat : s.beat = none) :
    s.lanesConsistent := by
  refine lanesConsistent_of_no_beat hbeat fun l => ?_
  have hlane : s.lane l = .reset := by simp [State.lane, hlanes, Vector.get]
  rw [hlane]
  exact Lane.Bare.fits_resting ⟨rfl, rfl, rfl, rfl, rfl, rfl, Nat.zero_le 3⟩ (.inl rfl) rfl rfl

theorem globalCommandOf_cases (code : BitVec 4) :
    globalCommandOf code = startWheel ∨ globalCommandOf code = stopWheel ∨ globalCommandOf code = rewindWheel ∨
      globalCommandOf code = softReset ∨ globalCommandOf code = eraseMemory ∨
      globalCommandOf code = fun s => (s, .refusedArgument) := by
  unfold globalCommandOf
  split <;> simp

theorem lanesConsistent_globalCommandOf {s : State} (hs : s.lanesConsistent) (code : BitVec 4) :
    (globalCommandOf code s).1.lanesConsistent := by
  rcases globalCommandOf_cases code with h | h | h | h | h | h <;> rw [h]
  · unfold startWheel
    split
    · exact hs
    · split <;> exact hs
  · unfold stopWheel
    split <;> exact hs
  · unfold rewindWheel
    split <;> exact hs
  · exact lanesConsistent_reset rfl rfl
  · unfold eraseMemory
    split
    · exact hs
    · split <;> exact hs
  · exact hs

theorem lanesConsistent_globalCommand {s : State} {command : State → State × CommandResult}
    (hcommand : (command s).1.lanesConsistent) : (globalCommand s command).lanesConsistent := hcommand

/-! ### The window -/

theorem lanesConsistent_commitItem {s t : State} (hs : s.lanesConsistent) {item : Item32} {w : Word}
    (h : commitItem s item w = some t) : t.lanesConsistent := by
  cases item with
  | mapEntry page =>
    simp only [commitItem, commitMapEntry] at h
    split at h
    · rw [← Option.some.inj h]
      refine lanesConsistent_shootdown ?_ page
      exact hs
    · contradiction
  | idleWord p => exact Option.some.inj h ▸ lanesConsistent_updPort hs p _
  | aperture a => exact Option.some.inj h ▸ lanesConsistent_of_lanes hs rfl rfl
  | slotCount => contradiction
  | beats => contradiction

theorem lanesConsistent_splitHighWrite {s : State} (hs : s.lanesConsistent) (item : Item32) (v : Half) :
    (splitHighWrite s item v).lanesConsistent := by
  unfold splitHighWrite
  split
  · exact hs
  · split
    · exact hs
    · split
      · split
        · next h => exact lanesConsistent_of_lanes (lanesConsistent_commitItem hs h) rfl rfl
        · exact hs
      · exact hs

theorem lanesConsistent_splitLowWrite {s : State} (hs : s.lanesConsistent) (item : Item32) (v : Half) :
    (splitLowWrite s item v).lanesConsistent := by
  unfold splitLowWrite
  split
  · exact hs
  · split <;> exact hs

theorem lanesConsistent_popQueue {s : State} (hs : s.lanesConsistent) : (popQueue s).lanesConsistent := by
  unfold popQueue
  split
  · exact hs
  · refine lanesConsistent_releaseQueue ?_
    exact hs

theorem lanesConsistent_writeScheduleEntry {s : State} (hs : s.lanesConsistent) (t : Table) (e : Fin 32) (v : Half) :
    (writeScheduleEntry s t e v).lanesConsistent := by
  unfold writeScheduleEntry
  dsimp only
  split
  · exact hs
  · split <;> exact hs

theorem lanesConsistent_writeSlotPeriod {s : State} (hs : s.lanesConsistent) (v : Half) :
    (writeSlotPeriod s v).lanesConsistent := by
  unfold writeSlotPeriod
  split <;> exact hs

theorem lanesConsistent_writeLaneSelect {s : State} (hs : s.lanesConsistent) (v : Half) :
    (writeLaneSelect s v).lanesConsistent := by
  unfold writeLaneSelect
  split <;> exact hs

/-- A host write of any item keeps the agreement (R174). -/
theorem lanesConsistent_writeItem {s : State} (hs : s.lanesConsistent) (i : Item) (offset : WindowOffset) (v : Half) :
    (writeItem s i offset v).lanesConsistent := by
  unfold writeItem
  split
  · exact lanesConsistent_globalCommand (lanesConsistent_globalCommandOf hs _)
  · exact lanesConsistent_of_lanes hs rfl rfl
  · exact lanesConsistent_of_lanes hs rfl rfl
  · exact lanesConsistent_of_lanes hs rfl rfl
  · exact lanesConsistent_setSignals hs v
  · exact lanesConsistent_of_lanes hs rfl rfl
  · exact lanesConsistent_of_lanes hs rfl rfl
  · exact lanesConsistent_writeSlotPeriod hs v
  · exact lanesConsistent_laneCommand hs _ (lanesConsistent_laneCommandOf hs _)
  · exact lanesConsistent_of_lanes hs rfl rfl
  · exact lanesConsistent_writeLaneSelect hs v
  · exact lanesConsistent_writeRecordPointer hs v
  · exact lanesConsistent_writeLaneConfig hs v
  · exact lanesConsistent_of_lanes hs rfl rfl
  · exact lanesConsistent_popQueue hs
  · exact lanesConsistent_writePortConfig hs _ v
  · exact lanesConsistent_updPort hs _ _
  · exact lanesConsistent_updPort hs _ _
  · exact lanesConsistent_updPort hs _ _
  · exact lanesConsistent_writeScheduleEntry hs _ _ v
  · exact lanesConsistent_splitLowWrite hs _ v
  · exact lanesConsistent_splitHighWrite hs _ v
  · exact hs
  · exact lanesConsistent_of_lanes hs rfl rfl

/-- A host read leaves the lanes and the beat. -/
theorem readItem_kept (s : State) (i : Item) : (readItem s i).lanes = s.lanes ∧ (readItem s i).beat = s.beat := by
  unfold readItem
  split
  · unfold splitLowRead
    split <;> exact ⟨rfl, rfl⟩
  · unfold splitHighRead
    split <;> exact ⟨rfl, rfl⟩
  · exact ⟨rfl, rfl⟩
  · exact ⟨rfl, rfl⟩

theorem lanesConsistent_hostReading {s : State} (hs : s.lanesConsistent) (i : Item) :
    (hostReading s fun s => readItem s i).lanesConsistent := by
  unfold hostReading
  split
  · exact hs
  · exact lanesConsistent_of_lanes hs (readItem_kept s i).1 (readItem_kept s i).2

theorem lanesConsistent_unlessReset {s : State} (hs : s.lanesConsistent) {f : State → State}
    (hf : (f s).lanesConsistent) : (unlessReset s f).lanesConsistent :=
  unlessReset_cases (p := State.lanesConsistent) hs fun _ => hf

theorem lanesConsistent_hostAccess {s : State} (hs : s.lanesConsistent) (offset : WindowOffset) (a : Access) :
    (hostAccess s offset a).lanesConsistent := by
  cases a with
  | read => exact lanesConsistent_hostReading hs _
  | write v => exact lanesConsistent_unlessReset hs (lanesConsistent_writeItem hs _ _ v)

theorem lanesConsistent_clearPassEnd {s : State} (hs : s.lanesConsistent) : (clearPassEnd s).lanesConsistent := by
  unfold clearPassEnd
  split <;> exact hs

theorem lanesConsistent_resetRelease {s : State} (hs : s.lanesConsistent) : (resetRelease s).lanesConsistent := by
  unfold resetRelease
  split <;> exact hs

theorem lanesConsistent_waitTimeout {s : State} (hs : s.lanesConsistent) (l : LaneId) :
    (waitTimeout s l).lanesConsistent := by
  rcases waitTimeout_cases s l with e | e <;> rw [e]
  · exact lanesConsistent_slotTick hs
  · exact hs

theorem lanesConsistent_wordStep {s : State} (hs : s.lanesConsistent) (part : WordStepPart) :
    (wordStep s part).lanesConsistent := by
  cases part with
  | read => exact lanesConsistent_wordRead hs
  | write => exact lanesConsistent_wordWrite hs
  | whole => exact lanesConsistent_wordWrite (lanesConsistent_wordRead hs)

/-- Every command keeps the agreement. -/
theorem lanesConsistent_exec {s : State} (hs : s.lanesConsistent) (c : Instr) : Runs c s State.lanesConsistent := by
  have hlane : ∀ {lane : BitVec 4} {command : State → LaneId → State × LaneResult},
      (∀ l, (command s l).1.lanesConsistent) → (unlessReset s fun s => laneCommand s lane command).lanesConsistent :=
    fun hc => lanesConsistent_unlessReset hs (lanesConsistent_laneCommand hs _ hc)
  have hwheel : ∀ {command : State → State × CommandResult}, (∃ code, globalCommandOf code = command) →
      (unlessReset s fun s => globalCommand s command).lanesConsistent := fun ⟨code, hc⟩ =>
    lanesConsistent_unlessReset hs (lanesConsistent_globalCommand (hc ▸ lanesConsistent_globalCommandOf hs code))
  have hquiet : ∀ {f : State → State}, (f s).lanes = s.lanes → (f s).beat = s.beat → (unlessReset s f).lanesConsistent :=
    fun hlanes hbeat => lanesConsistent_unlessReset hs (lanesConsistent_of_lanes hs hlanes hbeat)
  have hport : ∀ {p : PortId} {v : Half}, (unlessReset s fun s => writePortConfig s p v).lanesConsistent :=
    lanesConsistent_unlessReset hs (lanesConsistent_writePortConfig hs _ _)
  have hhigh : ∀ {i : Item32} {v : Half}, (unlessReset s fun s => splitHighWrite s i v).lanesConsistent :=
    lanesConsistent_unlessReset hs (lanesConsistent_splitHighWrite hs _ _)
  cases c with
  | enable lane => exact ⟨_, rfl, hlane (lanesConsistent_enableLane hs)⟩
  | disable lane => exact ⟨_, rfl, hlane (lanesConsistent_disableLane hs)⟩
  | start lane => exact ⟨_, rfl, hlane (lanesConsistent_startLane hs)⟩
  | halt lane => exact ⟨_, rfl, hlane (lanesConsistent_haltLane hs)⟩
  | resume lane => exact ⟨_, rfl, hlane (lanesConsistent_resumeLane hs)⟩
  | abort lane => exact ⟨_, rfl, hlane (lanesConsistent_abortLane hs)⟩
  | laneCommandUnknown lane code => exact ⟨_, rfl, hlane (lanesConsistent_laneCommandOf hs code)⟩
  | wheelStart => exact ⟨_, rfl, hwheel ⟨1, rfl⟩⟩
  | wheelStop => exact ⟨_, rfl, hwheel ⟨2, rfl⟩⟩
  | wheelRewind => exact ⟨_, rfl, hwheel ⟨3, rfl⟩⟩
  | softReset => exact ⟨_, rfl, hwheel ⟨4, rfl⟩⟩
  | erase => exact ⟨_, rfl, hwheel ⟨5, rfl⟩⟩
  | globalCommandUnknown code => exact ⟨_, rfl, hwheel ⟨code, rfl⟩⟩
  | clearPassEnd => exact ⟨_, rfl, lanesConsistent_unlessReset hs (lanesConsistent_clearPassEnd hs)⟩
  | resetAssert => exact ⟨_, rfl, lanesConsistent_reset rfl rfl⟩
  | resetRelease => exact ⟨_, rfl, lanesConsistent_resetRelease hs⟩
  | recordPointerWrite v => exact ⟨_, rfl, lanesConsistent_unlessReset hs (lanesConsistent_writeRecordPointer hs v)⟩
  | laneConfigWrite v => exact ⟨_, rfl, lanesConsistent_unlessReset hs (lanesConsistent_writeLaneConfig hs v)⟩
  | laneSelectWrite v => exact ⟨_, rfl, lanesConsistent_unlessReset hs (lanesConsistent_writeLaneSelect hs v)⟩
  | recordWordsRead => exact ⟨_, rfl, lanesConsistent_hostReading hs .recordWords⟩
  | scheduleEntryWrite table e v =>
    exact ⟨_, rfl, lanesConsistent_unlessReset hs (lanesConsistent_writeScheduleEntry hs table e v)⟩
  | slotPeriodWrite v => exact ⟨_, rfl, lanesConsistent_unlessReset hs (lanesConsistent_writeSlotPeriod hs v)⟩
  | tableSelectWrite v => exact ⟨_, rfl, hquiet rfl rfl⟩
  | splitLowRead item => exact ⟨_, rfl, lanesConsistent_hostReading hs (.split item .low)⟩
  | splitHighRead item => exact ⟨_, rfl, lanesConsistent_hostReading hs (.split item .high)⟩
  | splitLowWrite item v => exact ⟨_, rfl, lanesConsistent_unlessReset hs (lanesConsistent_splitLowWrite hs item v)⟩
  | mapEntryCommit page v => exact ⟨_, rfl, hhigh⟩
  | apertureWordCommit word v => exact ⟨_, rfl, hhigh⟩
  | portIdleWordCommit p v => exact ⟨_, rfl, hhigh⟩
  | aperturePageWrite v => exact ⟨_, rfl, hquiet rfl rfl⟩
  | signalSet v => exact ⟨_, rfl, lanesConsistent_unlessReset hs (lanesConsistent_setSignals hs v)⟩
  | signalClear v => exact ⟨_, rfl, hquiet rfl rfl⟩
  | queuePop v => exact ⟨_, rfl, lanesConsistent_unlessReset hs (lanesConsistent_popQueue hs)⟩
  | queueThresholdWrite v => exact ⟨_, rfl, hquiet rfl rfl⟩
  | intStatusWrite v => exact ⟨_, rfl, hquiet rfl rfl⟩
  | intEnableWrite v => exact ⟨_, rfl, hquiet rfl rfl⟩
  | portRxEnable p v => exact ⟨_, rfl, hport⟩
  | portTxEnable p v => exact ⟨_, rfl, hport⟩
  | portRxDisable p v => exact ⟨_, rfl, hport⟩
  | portTxDisable p v => exact ⟨_, rfl, hport⟩
  | portStatusWrite p v => exact ⟨_, rfl, hquiet rfl rfl⟩
  | portCounterWrite p counter v => exact ⟨_, rfl, hquiet rfl rfl⟩
  | registerWrite offset v => exact ⟨_, rfl, lanesConsistent_hostAccess hs offset (.write v)⟩
  | unusedOffsetAccess offset a => exact ⟨_, rfl, lanesConsistent_hostAccess hs offset a⟩
  | slotTick => exact ⟨_, rfl, lanesConsistent_unlessReset hs (lanesConsistent_slotTick hs)⟩
  | waitTimeout l => exact ⟨_, rfl, lanesConsistent_unlessReset hs (lanesConsistent_waitTimeout hs l)⟩
  | recordLoad words => exact ⟨_, rfl, lanesConsistent_unlessReset hs (lanesConsistent_recordLoad hs _)⟩
  | cellRead => exact ⟨_, rfl, lanesConsistent_unlessReset hs (lanesConsistent_cellRead hs)⟩
  | wordStep part => exact ⟨_, rfl, lanesConsistent_unlessReset hs (lanesConsistent_wordStep hs part)⟩
  | beatEnd => exact ⟨_, rfl, lanesConsistent_unlessReset hs (lanesConsistent_beatEnd hs)⟩
  | lookupStart => exact ⟨_, rfl, lanesConsistent_unlessReset hs (lanesConsistent_lookupStart hs)⟩
  | lookupCompletion => exact ⟨_, rfl, lanesConsistent_unlessReset hs (lanesConsistent_lookupCompletion hs)⟩
  | frameStart p => exact ⟨_, rfl, lanesConsistent_unlessReset hs (lanesConsistent_frameStart hs p)⟩
  | frameEnd p sdi => exact ⟨_, rfl, lanesConsistent_unlessReset hs (lanesConsistent_frameEnd hs p sdi)⟩
  | sckPeriod p sdi => exact ⟨_, rfl, lanesConsistent_unlessReset hs (lanesConsistent_sckPeriod hs p sdi)⟩

/-- Settles O55: a step is a command or a timebase tick, and each keeps every lane in agreement with its state. -/
theorem laneContextsStayConsistent : Obligations.LaneContextsStayConsistent := by
  intro s t hs h
  unfold step at h
  split at h
  · next c rest _ =>
    have hrest : ({ s with pending := rest } : State).lanesConsistent := hs
    obtain ⟨u, hu, hkept⟩ := lanesConsistent_exec hrest c
    exact Host.Outcome.next.inj (hu.symm.trans h) ▸ hkept
  · exact Host.Outcome.next.inj h ▸ lanesConsistent_unlessReset hs (lanesConsistent_timebaseTick hs)

end Sys2Proof.Machine
end

section
/-! SUPPORT. What the lane commands read and write: the answer to a command, a lane's bit in the summaries, and the record copy,
the cursors and the context of a lane once it is cleared or redirected. -/

namespace Sys2Proof.Machine

/-! ### Lane commands -/

theorem laneOfField_named {lane : BitVec 4} (h : lane.toNat < 12) : laneOfField lane = some ⟨lane.toNat, h⟩ := dif_pos h

theorem laneOfField_none {lane : BitVec 4} (h : 12 ≤ lane.toNat) : laneOfField lane = none := dif_neg (by omega)

/-- A lane command outside RESET that names a lane has its result placed in LANE_RESULT (R26). -/
theorem exec_laneCommand {s : State} {lane : BitVec 4} {l : LaneId} {c : Instr}
    {command : State → LaneId → State × LaneResult} (hpin : s.resetPin = false) (hl : laneOfField lane = some l)
    (hc : exec c s = .next (unlessReset s fun s => laneCommand s lane command)) :
    exec c s = .next (setLaneResult (command s l).1 (command s l).2) := by
  rw [hc, unlessReset_run hpin, laneCommand, hl]

/-- A lane command outside RESET whose lane field names none is refused with BAD_LANE (R26, R166). -/
theorem exec_laneCommand_badLane {s : State} {lane : BitVec 4} {c : Instr}
    {command : State → LaneId → State × LaneResult} (hpin : s.resetPin = false) (hl : 12 ≤ lane.toNat)
    (hc : exec c s = .next (unlessReset s fun s => laneCommand s lane command)) :
    exec c s = .next (s.refuse .badLane 0x060) := by
  rw [hc, unlessReset_run hpin, laneCommand, laneOfField_none hl]

theorem mem_allLanes (l : LaneId) : l ∈ allLanes := by
  revert l
  decide

/-- The bit of a number in a summary over lanes: a lane of that number is in the state (R43). -/
theorem getLsbD_foldl_summary (s : State) (st : LaneState) (i : Nat) :
    ∀ (ls : List LaneId) (acc : Half),
      (ls.foldl (fun acc l => acc ||| bitAt ((s.lane l).state == st) l.val) acc).getLsbD i =
        (acc.getLsbD i || ls.any fun l => (s.lane l).state == st && decide (l.val = i))
  | [], acc => by simp
  | l :: ls, acc => by
    have hl : l.val = i → i < 16 := by omega
    rw [List.foldl_cons, getLsbD_foldl_summary s st i ls, BitVec.getLsbD_or, getLsbD_bitAt, List.any_cons,
      Bool.or_assoc]
    by_cases e : l.val = i <;> simp [e, hl]

theorem getLsbD_laneSummary (s : State) (st : LaneState) (l : LaneId) :
    (laneSummary s st).getLsbD l.val = decide ((s.lane l).state = st) := by
  rw [laneSummary, getLsbD_foldl_summary, Bool.eq_iff_iff]
  simp only [BitVec.ofNat_eq_ofNat, BitVec.getLsbD_zero, Bool.false_or, List.any_eq_true, Bool.and_eq_true, beq_iff_eq,
    decide_eq_true_eq]
  constructor
  · rintro ⟨k, -, hstate, hk⟩
    rwa [← Fin.ext hk]
  · exact fun hstate => ⟨l, mem_allLanes l, hstate, rfl⟩

/-- The bits above the lanes read 0. -/
theorem laneSummary_high (s : State) (st : LaneState) : (laneSummary s st).extractLsb' 12 4 = 0 := by
  ext i hi
  simp only [BitVec.getElem_extractLsb', laneSummary, getLsbD_foldl_summary, BitVec.ofNat_eq_ofNat, BitVec.getLsbD_zero,
    Bool.false_or, BitVec.getElem_zero, List.any_eq_false]
  intro l _
  have : l.val ≠ 12 + i := by omega
  simp [this]

/-- The bits of a lane that is OFF read clear in both summaries. -/
theorem summaries_of_off {s : State} {l : LaneId} (h : (s.lane l).state = .off) :
    (itemRead s .laneFaultSummary).getLsbD l.val = false ∧ (itemRead s .laneHaltSummary).getLsbD l.val = false := by
  have hfault := getLsbD_laneSummary s .faulted l
  have hhalt := getLsbD_laneSummary s .halted l
  rw [h] at hfault hhalt
  exact ⟨hfault, hhalt⟩

theorem haltSummary_of_halted {s : State} {l : LaneId} (h : (s.lane l).state = .halted) :
    (itemRead s .laneHaltSummary).getLsbD l.val = true := by
  have hhalt := getLsbD_laneSummary s .halted l
  rw [h] at hhalt
  exact hhalt

/-! ### Retargets by status -/

theorem State.enqueue_eq (s : State) (l : LaneId) (r : Role) (page : BitVec 7) :
    s.enqueue l r page = (s.setLane l ((s.lane l).setCursor r ⟨page, .pending⟩)).withMap
      { s.map with queue := s.map.queue ++ [(l, r)] } := rfl

/-- An UNSET cursor is appended to the lookup request queue (R105). -/
theorem retarget_unset {s : State} {l : LaneId} {r : Role} (page : BitVec 7) (h : (s.lane l).cursor r = .unset) :
    retarget s l r page = s.enqueue l r page := by
  simp only [retarget, h, Cursor.unset]

/-- A retarget marks the lookup in progress stale if it takes an IN_FLIGHT cursor to another page (R105, R107). -/
theorem retarget_lookup (s : State) (l : LaneId) (r : Role) (page : BitVec 7) :
    (retarget s l r page).map.lookup =
      if ((s.lane l).cursor r).status = .inFlight ∧ ((s.lane l).cursor r).page ≠ page then
        s.map.lookup.map fun k => { k with disposition := k.disposition.toStale }
      else s.map.lookup := by
  unfold retarget
  dsimp only
  cases ((s.lane l).cursor r).status with
  | unset => simp [State.enqueue]
  | pending => simp
  | inFlight =>
    by_cases e : ((s.lane l).cursor r).page = page
    · simp [e]
    · simp [e, State.markStale]
  | mapped target =>
    by_cases e : ((s.lane l).cursor r).page = page <;> simp [e, State.enqueue]

/-! ### The record copy -/

/-- The state with another read index of RECORD_WORDS. -/
def State.withIndex (s : State) (i : BitVec 3) : State := { s with window := { s.window with recordIndex := i } }

@[simp] theorem State.withIndex_lane (s : State) (i : BitVec 3) (l : LaneId) : (s.withIndex i).lane l = s.lane l := rfl
@[simp] theorem State.withIndex_map (s : State) (i : BitVec 3) : (s.withIndex i).map = s.map := rfl
@[simp] theorem State.withIndex_setLane (s : State) (i : BitVec 3) (l : LaneId) (x : Lane) :
    (s.withIndex i).setLane l x = (s.setLane l x).withIndex i := rfl
@[simp] theorem State.withMap_withIndex (s : State) (m : MapUnit) (i : BitVec 3) :
    (s.withMap m).withIndex i = (s.withIndex i).withMap m := rfl

theorem State.withIndex_self (s : State) : s.withIndex s.window.recordIndex = s := rfl

/-- The drop of a lane's copy, in full (R1, R177). -/
theorem dropCopy_eq (s : State) (l : LaneId) :
    dropCopy s l = (s.setLane l { s.lane l with progress := { (s.lane l).progress with current := none } }).withIndex
      (s.window.indexAfter l (s.lane l).progress.current.isSome) := by
  unfold dropCopy touchCopy Window.indexAfter
  cases hcopy : (s.lane l).progress.current with
  | none =>
    have hsame : s.setLane l { s.lane l with progress := { (s.lane l).progress with current := none } } = s := by
      rw [← hcopy]
      exact State.setLane_self s l
    simp [hsame, State.withIndex_self]
  | some r =>
    by_cases e : s.window.laneSelect = l
    · subst e
      simp
      rfl
    · simp [e]
      rfl

theorem dropCopy_window (s : State) (l : LaneId) :
    (dropCopy s l).window = { s.window with
      recordIndex := s.window.indexAfter l (s.lane l).progress.current.isSome } := by
  rw [dropCopy_eq]
  rfl

/-- A lane's cursors stay sound when its copy is dropped. -/
theorem State.CursorSound.dropCopy {s : State} {l : LaneId} {r : Role} (h : s.CursorSound l r) :
    (dropCopy s l).CursorSound l r := by
  refine h.congr (dropCopy_map s l) ?_
  rw [(leaves_dropCopy rfl).lane]
  cases r <;> rfl

/-- The clearing of a lane under a sound lookup unit, in full (R28, R32, R106, R177). -/
theorem clearLane_eq {s : State} {l : LaneId} (h : ∀ r, s.CursorSound l r) (into : LaneState) (config : LaneConfig) :
    clearLane s l into config = { s.setLane l ((s.lane l).clearedTo into config) with
      map := s.map.without l
      window := { s.window with recordIndex := s.window.indexAfter l (s.lane l).progress.current.isSome } } := by
  rw [clearLane, releaseAll_eq fun r => (h r).dropCopy, dropCopy_eq]
  simp only [State.updLane, State.withIndex_lane, State.withIndex_map, State.withIndex_setLane, State.withMap_lane,
    State.withMap_setLane, State.setLane_setLane, State.lane_setLane_same]
  rfl

/-! ### What the completion of a record makes of the window and the lookup queue -/

@[simp] theorem retarget_window (s : State) (l : LaneId) (r : Role) (page : BitVec 7) :
    (retarget s l r page).window = s.window := by
  unfold retarget
  dsimp only
  split <;> try split
  all_goals rfl

@[simp] theorem release_window (s : State) (l : LaneId) (r : Role) : (release s l r).window = s.window := by
  unfold release
  dsimp only
  split <;> rfl

@[simp] theorem releaseAll_window (s : State) (l : LaneId) : (releaseAll s l).window = s.window := by
  simp [releaseAll, allRoles]

theorem enterFaulted_window (s : State) (l : LaneId) (f : FaultRecord) : (enterFaulted s l f).window = s.window :=
  releaseAll_window s l

/-- A verdict leaves the window, but for IDLE, at which the copy is dropped. -/
theorem applyVerdict_window {s : State} {l : LaneId} {v : Verdict} (h : v ≠ .idle) (step : Bool) :
    (applyVerdict s l step v).window = s.window := by
  cases v with
  | run reasons portWait => rfl
  | completed => cases step <;> rfl
  | waiting w => rfl
  | breakHalt => rfl
  | idle => contradiction
  | fault f => exact enterFaulted_window s l f

theorem completeAdvance_window (s : State) (l : LaneId) : (completeAdvance s l).1.window = (dropCopy s l).window := by
  unfold completeAdvance
  dsimp only
  split
  · rfl
  · exact retarget_window _ l .walk _

/-- A WAIT that completes outside a beat drops its record's copy (R177). -/
theorem completeWait_window (s : State) (l : LaneId) :
    (completeWait s l).window = { s.window with
      recordIndex := s.window.indexAfter l (s.lane l).progress.current.isSome } := by
  have hverdict : ∀ t : State, (completeAdvance t l).2 ≠ .idle := fun t e => by
    have hallowed := completeAdvance_allowed t l
    rw [e] at hallowed
    exact hallowed
  unfold completeWait
  dsimp only
  rw [applyVerdict_window (hverdict _), completeAdvance_window, dropCopy_window, State.lane_updLane_same]
  rfl

/-- A WAIT that completes outside a beat retargets the WALK of its lane to the next record (R16). -/
theorem completeWait_queue {s : State} {l : LaneId} (h : (s.lane l).progress.pointer ≠ 0x7FFC) :
    (completeWait s l).map.queue =
      s.map.queue ++ (s.lane l).walk.appended l .walk ((s.lane l).progress.pointer + 4).page := by
  have hlane := State.lane_updLane_same s l fun x => { x with wait := none }
  unfold completeWait
  dsimp only
  rw [completeAdvance_next (by rw [hlane]; exact h), hlane]
  calc _ = (takeLink (s.updLane l fun x => { x with wait := none }) l ((s.lane l).progress.pointer + 4)).1.map.queue :=
        congrArg MapUnit.queue (applyVerdict_completed_map _ l _)
    _ = _ := by
      rw [takeLink_queue, hlane]
      rfl

end Sys2Proof.Machine
end

section
/-! CERTIFICATE. The lane commands and the writes of lane fields (R26 to R32, R39, R40, R44, R177), and the state just after a
device reset (R46). -/

namespace Sys2Proof.Machine

/-! ### Codes and lanes that name nothing -/

theorem globalCommandOf_unknown {code : BitVec 4} (h : code = 0 ∨ 5 < code.toNat) :
    globalCommandOf code = fun s => (s, .refusedArgument) := by
  unfold globalCommandOf
  rcases h with rfl | h
  · rfl
  · split <;> first | rfl | omega

/-- Settles O8: the code or the lane field selects the answer before any lane is examined. -/
theorem commandFieldsThatNameNothingAreAnswered : Obligations.CommandFieldsThatNameNothingAreAnswered := by
  intro s hpin
  refine ⟨fun lane code hlane hcode => ?_, fun code hcode => ?_, fun lane code hlane c hc => ?_⟩
  · rw [exec_laneCommand hpin (laneOfField_named hlane) (command := laneCommandOf code) rfl]
    rcases hcode with rfl | rfl <;> rfl
  · have hexec : exec (.globalCommandUnknown code) s = .next (unlessReset s fun s => writeGlobalCommand s code) := rfl
    rw [hexec, unlessReset_run hpin, writeGlobalCommand, globalCommandOf_unknown hcode]
    rfl
  · simp only [List.mem_cons, List.not_mem_nil, or_false] at hc
    rcases hc with rfl | rfl | rfl | rfl | rfl | rfl | rfl <;> exact exec_laneCommand_badLane hpin hlane rfl

/-! ### ENABLE and START -/

theorem isRecordAddress_iff (v : Half) :
    isRecordAddress v = true ↔ v.getLsbD 15 = false ∧ v.getLsbD 1 = false ∧ v.getLsbD 0 = false := by
  have hlow : v.extractLsb' 0 2 = 0 ↔ v.getLsbD 1 = false ∧ v.getLsbD 0 = false := by
    constructor
    · intro h
      have h0 := congrArg (BitVec.getLsbD · 0) h
      have h1 := congrArg (BitVec.getLsbD · 1) h
      exact ⟨by simpa using h1, by simpa using h0⟩
    · rintro ⟨h1, h0⟩
      ext i hi
      obtain rfl | rfl : i = 0 ∨ i = 1 := by omega
      · simpa using h0
      · simpa using h1
  simp only [isRecordAddress, Bool.and_eq_true, Bool.not_eq_true', beq_iff_eq, hlow]

/-! START, by what it examines in turn (R29). -/

theorem startLane_refusedState {s : State} {l : LaneId} (h : (s.lane l).state ≠ .idle) :
    startLane s l = (s, .refusedState) := by
  unfold startLane
  split
  · contradiction
  · rfl

theorem startLane_refusedClearing {s : State} {l : LaneId} (h : (s.lane l).state = .idle) (hclear : s.clearing = true) :
    startLane s l = (s, .refusedClearing) := by
  simp [startLane, h, hclear]

theorem startLane_refusedArgument {s : State} {l : LaneId} (h : (s.lane l).state = .idle) (hclear : s.clearing = false)
    (hargument : isRecordAddress s.window.laneArgument = false) : startLane s l = (s, .refusedArgument) := by
  simp [startLane, h, hclear, hargument]

/-- The state after an accepted START: the lane's progress set up, its WALK retargeted, BLOCKED with MAP alone (R29). -/
def State.started (s : State) (l : LaneId) (head : LAddr) : State :=
  (retarget (s.updLane l fun x =>
    { x with phase := .load, progress := { Progress.cleared head with current := x.progress.current } }) l .walk
    head.page).updLane l fun x => { x with state := .blocked, reasons := ⟨true, false, false⟩ }

theorem startLane_accepted {s : State} {l : LaneId} (h : (s.lane l).state = .idle) (hclear : s.clearing = false)
    (hargument : isRecordAddress s.window.laneArgument = true) :
    startLane s l = (s.started l (s.window.laneArgument.setWidth 15), .accepted) := by
  simp [startLane, h, hclear, hargument, State.started]

/-- Settles O10, by the state of the lane. -/
theorem enableTakesAnOffLaneToIdle : Obligations.EnableTakesAnOffLaneToIdle := by
  intro s lane l hpin hl
  have hexec : exec (.enable lane) s = .next (setLaneResult (enableLane s l).1 (enableLane s l).2) :=
    exec_laneCommand hpin hl rfl
  have henabled : (s.lane l).state = .off → exec (.enable lane) s =
      .next (setLaneResult (s.setLane l { s.lane l with state := .idle }) .accepted) := fun hoff => by
    simp only [hexec, enableLane, hoff]
    rfl
  refine ⟨henabled, fun hoff hclear hhigh hlow => ?_, fun hoff => ?_⟩
  · refine ⟨_, henabled hoff, _, exec_laneCommand (command := startLane) hpin hl rfl, ?_⟩
    have hargument : isRecordAddress s.window.laneArgument = true := by
      simp only [isRecordAddress, hhigh, hlow]
      rfl
    have haccepted := startLane_accepted (s := setLaneResult (s.setLane l { s.lane l with state := .idle }) .accepted)
      (congrArg Lane.state (State.lane_setLane_same s l _)) hclear hargument
    rw [haccepted]
    rfl
  · rw [hexec, enableLane]
    split
    · contradiction
    · rfl

/-- A cursor of an OFF, IDLE or FAULTED lane is UNSET under a sound lookup unit. -/
theorem State.lookupsSound.resting {s : State} (h : s.lookupsSound) {l : LaneId}
    (hstate : (s.lane l).state = .off ∨ (s.lane l).state = .idle ∨ (s.lane l).state = .faulted) (r : Role) :
    (s.lane l).cursor r = .unset := by
  obtain ⟨-, -, -, -, -, hrest⟩ := h
  exact hrest l hstate r

/-- An accepted START appends the UNSET WALK of its lane to the lookup queue, and changes the lane only besides (R29). -/
theorem started_eq {s : State} {l : LaneId} (hwalk : (s.lane l).walk = .unset) (head : LAddr) :
    s.started l head = { s.setLane l { s.lane l with
        state := .blocked, reasons := ⟨true, false, false⟩, phase := .load
        progress := ⟨head, (s.lane l).progress.current, .src, 0, 0, 0, 0, 0, 0⟩, walk := ⟨head.page, .pending⟩ } with
      map := { s.map with queue := s.map.queue ++ [(l, .walk)] } } := by
  unfold State.started
  rw [retarget_unset, State.enqueue_eq]
  · simp only [State.updLane, State.setLane_setLane, State.lane_setLane_same, State.withMap_lane, State.withMap_setLane]
    rfl
  · rw [State.lane_updLane_same]
    exact hwalk

/-- Settles O13, by what START examines in turn. -/
theorem startBeginsAWorkList : Obligations.StartBeginsAWorkList := by
  intro s lane l hpin hl hsound
  have hexec : exec (.start lane) s = .next (setLaneResult (startLane s l).1 (startLane s l).2) :=
    exec_laneCommand hpin hl rfl
  refine ⟨fun hstate => ?_, fun hstate hclear => ?_, fun hstate hclear hargument => ?_,
    fun hstate hclear h15 h1 h0 => ?_⟩
  · rw [hexec, startLane_refusedState hstate]
  · rw [hexec, startLane_refusedClearing hstate hclear]
  · have hbad : isRecordAddress s.window.laneArgument = false := by
      rw [← Bool.not_eq_true, isRecordAddress_iff]
      rcases hargument with h | h | h <;> simp [h]
    rw [hexec, startLane_refusedArgument hstate hclear hbad]
  · rw [hexec, startLane_accepted hstate hclear ((isRecordAddress_iff _).mpr ⟨h15, h1, h0⟩),
      started_eq (hsound.resting (.inr (.inl hstate)) .walk)]

/-! ### DISABLE and ABORT -/

theorem disableLane_accepted {s : State} {l : LaneId}
    (h : (s.lane l).state = .idle ∨ (s.lane l).state = .halted ∨ (s.lane l).state = .faulted) :
    disableLane s l = (clearLane s l .off .default, .accepted) := by
  rcases h with h | h | h <;> simp [disableLane, h]

theorem disableLane_refused {s : State} {l : LaneId} (h : (s.lane l).state = .off ∨ (s.lane l).state = .active ∨
    (s.lane l).state = .blocked ∨ (s.lane l).state = .waiting) : disableLane s l = (s, .refusedState) := by
  rcases h with h | h | h | h <;> simp [disableLane, h]

/-- The completion of an abandoned lookup frees the unit and changes nothing else (R107, R109). -/
theorem lookupCompletion_abandoned {s : State} {k : Lookup} (h : s.map.lookup = some k)
    (hk : k.disposition = .abandoned) : lookupCompletion s = { s with map := { s.map with lookup := none } } := by
  simp [lookupCompletion, h, hk]

/-- A lane's lookup is abandoned once its cursors are released. -/
theorem MapUnit.without_lookup {m : MapUnit} {l : LaneId} {k : Lookup} (h : (m.without l).lookup = some k)
    (hk : k.lane = l) : k.disposition = .abandoned := by
  simp only [MapUnit.without, Option.map_eq_some_iff] at h
  obtain ⟨j, -, rfl⟩ := h
  split at hk
  · next e => simp [e]
  · contradiction

/-- What a disabled lane shows in the summaries, and what the completion of its abandoned lookup does. -/
theorem disabled_shows {t : State} {m : MapUnit} {l : LaneId} (hpin : t.resetPin = false)
    (hoff : (t.lane l).state = .off) (hmap : t.map = m.without l) :
    (itemRead t .laneFaultSummary).getLsbD l.val = false ∧ (itemRead t .laneHaltSummary).getLsbD l.val = false ∧
      ∀ k, t.map.lookup = some k → k.lane = l →
        exec .lookupCompletion t = .next { t with map := { t.map with lookup := none } } := by
  obtain ⟨hfault, hhalt⟩ := summaries_of_off hoff
  refine ⟨hfault, hhalt, fun k hk hlane => ?_⟩
  have hab : k.disposition = .abandoned := MapUnit.without_lookup (m := m) (l := l) (hmap ▸ hk) hlane
  have hexec : exec .lookupCompletion t = .next (unlessReset t lookupCompletion) := rfl
  rw [hexec, unlessReset_run hpin, lookupCompletion_abandoned hk hab]

/-- Settles O11, by the state of the lane. -/
theorem disableClearsTheLane : Obligations.DisableClearsTheLane := by
  intro s lane l hpin hl hsound
  have hexec : exec (.disable lane) s = .next (setLaneResult (disableLane s l).1 (disableLane s l).2) :=
    exec_laneCommand hpin hl rfl
  have hcleared : (s.lane l).state = .idle ∨ (s.lane l).state = .halted ∨ (s.lane l).state = .faulted →
      exec (.disable lane) s = .next { s.setLane l ((s.lane l).clearedTo .off ⟨3, false, false⟩) with
        map := s.map.without l
        window := { s.window with
          laneResult := .accepted
          recordIndex := s.window.indexAfter l (s.lane l).progress.current.isSome } } := fun hstate => by
    rw [hexec, disableLane_accepted hstate, clearLane_eq fun r => hsound.cursorSound l r]
    rfl
  refine ⟨hcleared, fun hstate => ⟨_, hcleared hstate, ?_⟩, fun hstate => ?_, fun hstate => ?_⟩
  · exact disabled_shows hpin (congrArg Lane.state (State.lane_setLane_same s l _)) rfl
  · rw [hexec, disableLane_refused hstate]
  · simp [State.ready, hstate]

/-- Settles O12, by the state of the lane and its beat. -/
theorem abortLeavesTheLaneIdle : Obligations.AbortLeavesTheLaneIdle := by
  intro s lane l hpin hl hsound
  have hexec : exec (.abort lane) s = .next (setLaneResult (abortLane s l).1 (abortLane s l).2) :=
    exec_laneCommand hpin hl rfl
  refine ⟨fun hstate => ?_, fun hstate hown => ?_, fun hstate hown => ?_⟩
  · simp [hexec, abortLane, hstate]
  · have hheld : abortLane s l = (s.updLane l fun x => { x with deferred := some .abort }, .accepted) := by
      simp [abortLane, hstate, hown]
    rw [hexec, hheld]
    rfl
  · have hcleared : abortLane s l = (clearLane s l .idle (s.lane l).config, .accepted) := by
      unfold abortLane
      split
      · contradiction
      · next e => simp [hown e]
      · rfl
    rw [hexec, hcleared, clearLane_eq fun r => hsound.cursorSound l r]
    rfl

/-! ### HALT -/

/-- The resume state HALT takes from an ACTIVE, BLOCKED or WAITING lane (R30). -/
def Lane.resumeState (x : Lane) : Resume :=
  if x.state = .active then .active else if x.state = .blocked then .blocked x.reasons else .waiting

theorem haltNow_resumeState {s : State} {l : LaneId}
    (h : (s.lane l).state = .active ∨ (s.lane l).state = .blocked ∨ (s.lane l).state = .waiting) :
    haltNow s l = { s.setLane l ((s.lane l).haltedBy .host (s.lane l).resumeState) with ints := s.ints.setting 0x04 } := by
  rw [← enterHalted_eq]
  rcases h with h | h | h <;> simp [haltNow, Lane.resumeState, h]

/-- A lane between beats that may be halted is halted at once (R30). -/
theorem haltLane_now {s : State} {l : LaneId} (hnone : (s.lane l).deferred = none)
    (h : ((s.lane l).state = .active ∧ s.ownBeat l = false) ∨ (s.lane l).state = .blocked ∨ (s.lane l).state = .waiting) :
    haltLane s l = (haltNow s l, .accepted) := by
  rcases h with ⟨h, hown⟩ | h | h
  · simp [haltLane, hnone, h, hown]
  · simp [haltLane, hnone, h]
  · simp [haltLane, hnone, h]

/-- Settles O14, by the state of the lane, its beat and its deferred request. -/
theorem haltStopsALaneBetweenBeats : Obligations.HaltStopsALaneBetweenBeats := by
  intro s lane l hpin hl
  have hexec : exec (.halt lane) s = .next (setLaneResult (haltLane s l).1 (haltLane s l).2) :=
    exec_laneCommand hpin hl rfl
  refine ⟨fun hrefused => ?_, fun hnone hstate hown => ?_, fun hnone hstate => ?_⟩
  · have hheld : haltLane s l = (s, .refusedState) := by
      rcases hrefused with h | h | h | h | h
      · simp [haltLane, h]
      all_goals simp [haltLane, h]
    rw [hexec, hheld]
  · have hheld : haltLane s l = (s.updLane l fun x => { x with deferred := some .halt }, .accepted) := by
      simp [haltLane, hnone, hstate, hown]
    rw [hexec, hheld]
    rfl
  · have hrunning : (s.lane l).state = .active ∨ (s.lane l).state = .blocked ∨ (s.lane l).state = .waiting :=
      hstate.imp_left And.left
    rw [haltLane_now hnone hstate, haltNow_resumeState hrunning] at hexec
    exact ⟨hexec, _, hexec, haltSummary_of_halted (congrArg Lane.state (State.lane_setLane_same s l _))⟩

/-! ### RESUME -/

/-- A lane without halt reason and resume state, as RESUME examines it (R31). -/
def Lane.unhalted (x : Lane) : Lane := { x with haltReason := none, resume := none }

theorem Reasons.eq_empty_iff (r : Reasons) : r = .empty ↔ (r.port || r.queue || r.map) = false := by
  obtain ⟨map, port, queue⟩ := r
  cases map <;> cases port <;> cases queue <;> decide

theorem settle_eq (s : State) (l : LaneId) (reasons : Reasons) :
    settle s l reasons = s.setLane l
      (if reasons.port || reasons.queue || (reasons.map || !(s.lane l).neededMapped) then
        { s.lane l with
          state := .blocked, reasons := ⟨reasons.map || !(s.lane l).neededMapped, reasons.port, reasons.queue⟩ }
      else { s.lane l with state := .active, reasons := ⟨false, false, false⟩ }) := by
  refine congrArg (s.setLane l) ?_
  have hreasons := Reasons.eq_empty_iff { reasons with map := reasons.map || !(s.lane l).neededMapped }
  dsimp only at hreasons ⊢
  by_cases e : ({ reasons with map := reasons.map || !(s.lane l).neededMapped } : Reasons) = .empty
  · rw [if_pos e, hreasons.mp e, e]
    rfl
  · rw [if_neg e, (Bool.not_eq_false _).mp (mt hreasons.mpr e)]
    rfl

theorem settle_empty_eq (s : State) (l : LaneId) : settle s l .empty = s.setLane l (s.lane l).enterActive := by
  rw [settle_eq]
  unfold Lane.enterActive
  cases (s.lane l).neededMapped <;> rfl

theorem resumeLane_refused {s : State} {l : LaneId} (h : (s.lane l).state ≠ .halted) :
    resumeLane s l = (s, .refusedState) := by
  unfold resumeLane
  split
  · contradiction
  · rfl

theorem resumeLane_accepted {s : State} {l : LaneId} (h : (s.lane l).state = .halted) :
    resumeLane s l = (resumeHalted s l, .accepted) := by
  simp [resumeLane, h]

/-! The re-evaluation of a resume state, case by case (R31). -/

theorem resumeHalted_active {s : State} {l : LaneId} (h : (s.lane l).resume = some .active) :
    resumeHalted s l = settle (s.updLane l Lane.unhalted) l .empty := by
  simp only [resumeHalted, h]
  rfl

theorem resumeHalted_blocked {s : State} {l : LaneId} {held : Reasons} (h : (s.lane l).resume = some (.blocked held)) :
    resumeHalted s l = settle (s.updLane l Lane.unhalted) l { held with map := false } := by
  simp only [resumeHalted, h]
  rfl

theorem resumeHalted_waiting {s : State} {l : LaneId} {w : Wait} (h : (s.lane l).resume = some .waiting)
    (hw : (s.lane l).wait = some w) (hnone : s.signals &&& w.mask = 0) :
    resumeHalted s l = (s.updLane l Lane.unhalted).updLane l fun x => { x with state := .waiting } := by
  simp only [resumeHalted, h, hw]
  rw [satisfyWait_none (s := s.updLane l _) hnone]
  rfl

theorem resumeHalted_completes {s : State} {l : LaneId} {w : Wait} {n : SignalId}
    (h : (s.lane l).resume = some .waiting) (hw : (s.lane l).wait = some w)
    (hn : lowestSignal (s.signals &&& w.mask) = some n) : resumeHalted s l = completeWait
      ((s.updLane l Lane.unhalted).withSignals (signalsAfterWait s.signals n w.consume)) l := by
  simp only [resumeHalted, h, hw]
  rw [satisfyWait_some (s := s.updLane l _) (n := n) hn]
  rfl

/-- Settles O15, by the resume state, and by the signals for one that was WAITING. -/
theorem resumeReevaluatesTheResumeState : Obligations.ResumeReevaluatesTheResumeState := by
  intro s lane l hpin hl hsound
  have hexec : exec (.resume lane) s = .next (setLaneResult (resumeLane s l).1 (resumeLane s l).2) :=
    exec_laneCommand hpin hl rfl
  have hlane := State.lane_updLane_same s l Lane.unhalted
  refine ⟨fun hstate => ?_, fun hstate hresume => ?_, fun hstate held hresume => ?_, fun hstate hresume w hw =>
    ⟨fun hnone => ?_, fun n hn hlow => ?_⟩⟩
  · rw [hexec, resumeLane_refused hstate]
  · rw [hexec, resumeLane_accepted hstate, resumeHalted_active hresume, settle_empty_eq, hlane, State.updLane,
      State.setLane_setLane]
    rfl
  · rw [hexec, resumeLane_accepted hstate, resumeHalted_blocked hresume, settle_eq, hlane, State.updLane,
      State.setLane_setLane]
    simp only [Bool.false_or]
    rfl
  · rw [hexec, resumeLane_accepted hstate, resumeHalted_waiting hresume hw hnone, State.updLane_updLane]
    rfl
  · rw [resumeLane_accepted hstate, resumeHalted_completes hresume hw (lowestSignal_eq hn hlow)] at hexec
    have hunhalted := (leaves_updLane (s := s) (l := l) rfl Lane.unhalted).withSignals
      (signalsAfterWait s.signals n w.consume)
    generalize hu : (s.updLane l Lane.unhalted).withSignals (signalsAfterWait s.signals n w.consume) = u
      at hexec hunhalted
    have hdone := hunhalted.after (leaves_completeWait (hunhalted.lane.symm ▸ hsound.tidy l))
    have hwindow := completeWait_window u l
    have hqueue := completeWait_queue (s := u) (l := l)
    rw [hunhalted.lane] at hwindow hqueue hdone
    generalize completeWait u l = t at hexec hdone hwindow hqueue
    subst hu
    have hints : t.ints = if (s.lane l).progress.pointer = 0x7FFC then s.ints.setting 0x02
        else if (s.lane l).config.step then s.ints.setting 0x04 else s.ints := by
      refine hdone.ints.trans ?_
      show s.ints.setting (completionInts (s.lane l).progress.pointer (s.lane l).config.step) = _
      unfold completionInts
      split
      · rfl
      · split
        · rfl
        · exact Interrupts.setting_zero _
    have hframe := hdone.frame
    rw [← hdone.signals] at hframe
    exact ⟨_, hexec, hdone.lane, hdone.others, hdone.signals, hdone.entries, hqueue, hints,
      congrArg (fun w : Window => { w with laneResult := .accepted }) hwindow,
      congrArg (setLaneResult · .accepted) hframe⟩

/-! ### RECORD_POINTER -/

/-- The lookup unit after the release of a lane's cursors but WALK (R39, R106). -/
def MapUnit.withoutMove (m : MapUnit) (l : LaneId) : MapUnit :=
  { m with
    queue := m.queue.filter fun q => !(q.1 == l && q.2 != .walk)
    lookup := m.lookup.map fun k => if k.lane = l ∧ k.role ≠ .walk then { k with disposition := .abandoned } else k }

theorem MapUnit.withoutMove_eq (m : MapUnit) (l : LaneId) :
    m.withoutMove l = ((m.withoutCursor l .hop).withoutCursor l .src).withoutCursor l .dst := by
  have hqueue : ∀ q : LaneId × Role,
      (!(q.1 == l && q.2 != .walk)) = (q != (l, .dst) && (q != (l, .src) && q != (l, .hop))) := by
    rintro ⟨k, r⟩
    rw [Bool.eq_iff_iff]
    by_cases e : k = l <;> cases r <;> simp [e]
  simp only [MapUnit.withoutMove, MapUnit.withoutCursor, List.filter_filter, hqueue, Option.map_map]
  congr 1
  refine congrArg (fun f => Option.map f m.lookup) (funext fun k => ?_)
  obtain ⟨lane, role, page, disposition⟩ := k
  by_cases e : lane = l <;> cases role <;> simp [e]

/-- A redirected lane before its WALK is retargeted (R39). -/
def Lane.redirected (x : Lane) (pointer : LAddr) : Lane :=
  { x with
    phase := .load, progress := .cleared pointer, pendingPost := none, wait := none, repeatRecord := none
    portWait := none, haltReason := some .host, resume := some .active, hop := .unset, src := .unset, dst := .unset }

/-- The redirect of a lane under a sound lookup unit, before its WALK is retargeted (R39). -/
def State.redirecting (s : State) (l : LaneId) (pointer : LAddr) : State :=
  ((s.setLane l ((s.lane l).redirected pointer)).withIndex
    (s.window.indexAfter l (s.lane l).progress.current.isSome)).withMap (s.map.withoutMove l)

theorem leaves_redirecting (s : State) (l : LaneId) (pointer : LAddr) :
    Leaves l ((s.lane l).redirected pointer) 0 s (s.redirecting l pointer) :=
  ⟨⟨fun _ hk => State.lane_setLane_other s _ hk, rfl, rfl, rfl, rfl, rfl, rfl, rfl, rfl, rfl, rfl, rfl, rfl⟩,
    State.lane_setLane_same s l _, (Interrupts.setting_zero _).symm⟩

theorem redirectLane_eq {s : State} {l : LaneId} (h : ∀ r, s.CursorSound l r) (pointer : LAddr) :
    redirectLane s l pointer = retarget (s.redirecting l pointer) l .walk pointer.page := by
  have hdrop : ∀ r, (dropCopy s l).CursorSound l r := fun r => (h r).dropCopy
  have hsrc := (hdrop .src).afterRelease (r := .hop) (by simp)
  have hdst := ((hdrop .dst).afterRelease (r := .hop) (by simp)).afterRelease (r := .src) (by simp)
  unfold redirectLane
  dsimp only
  rw [release_eq (hdrop .hop), release_eq hsrc, release_eq hdst, dropCopy_eq]
  refine congrArg (retarget · l .walk pointer.page) ?_
  simp only [State.unsetCursor, State.updLane, State.redirecting, MapUnit.withoutMove_eq, State.withIndex_lane,
    State.withIndex_map, State.withIndex_setLane, State.withMap_lane, State.withMap_map, State.withMap_setLane,
    State.withMap_withMap, State.setLane_setLane, State.lane_setLane_same, State.setLane_map]
  rfl

/-- The lookup in progress after a redirect: abandoned if it was for a released cursor, stale if the WALK it is for goes to
another page (R105, R106, R107). -/
theorem redirectLane_lookup {s : State} {l : LaneId} (h : ∀ r, s.CursorSound l r) (pointer : LAddr) :
    (redirectLane s l pointer).map.lookup = s.map.lookup.map fun k =>
      if k.lane = l ∧ k.role ≠ .walk then { k with disposition := .abandoned }
      else if k.lane = l ∧ (s.lane l).walk.status = .inFlight ∧ (s.lane l).walk.page ≠ pointer.page then
        { k with disposition := k.disposition.toStale }
      else k := by
  have hwalk : ((s.redirecting l pointer).lane l).cursor .walk = (s.lane l).walk := by
    simp [State.redirecting, Lane.cursor, Lane.redirected]
  rw [redirectLane_eq h, retarget_lookup, hwalk]
  by_cases e : (s.lane l).walk.status = .inFlight ∧ (s.lane l).walk.page ≠ pointer.page
  · obtain ⟨k, hk, -, hlane, hrole⟩ := (h .walk).lookedUp.mp e.1
    simp [e, State.redirecting, MapUnit.withoutMove, hk, hlane, hrole]
  · simp [e, State.redirecting, MapUnit.withoutMove]

theorem writeRecordPointer_readOnly {s : State} (h : (s.lane s.window.laneSelect).state ≠ .halted) (v : Half) :
    writeRecordPointer s v = s.refuse .readOnly 0x074 := by
  unfold writeRecordPointer
  dsimp only
  split
  · contradiction
  · rfl

theorem writeRecordPointer_halted {s : State} (h : (s.lane s.window.laneSelect).state = .halted) (v : Half) :
    writeRecordPointer s v =
      if isRecordAddress v then redirectLane s s.window.laneSelect (v.setWidth 15) else s.refuse .badTarget 0x074 := by
  simp only [writeRecordPointer, h]

/-- Settles O16, by the state of the selected lane and the value. -/
theorem recordPointerWriteRedirectsAHaltedLane : Obligations.RecordPointerWriteRedirectsAHaltedLane := by
  intro s v hpin hsound
  have hexec : exec (.recordPointerWrite v) s = .next (writeRecordPointer s v) :=
    congrArg Host.Outcome.next (unlessReset_run hpin _)
  refine ⟨fun hstate => ?_, fun hstate hbad => ?_, fun hstate h15 h1 h0 => ?_⟩
  · rw [hexec, writeRecordPointer_readOnly hstate]
  · have hno : ¬ isRecordAddress v = true := by
      rw [isRecordAddress_iff]
      rcases hbad with h | h | h <;> simp [h]
    rw [hexec, writeRecordPointer_halted hstate, if_neg hno]
  · have hcursors := hsound.cursorSound s.window.laneSelect
    have hlookup := redirectLane_lookup hcursors (v.setWidth 15)
    rw [writeRecordPointer_halted hstate, if_pos ((isRecordAddress_iff v).mpr ⟨h15, h1, h0⟩)] at hexec
    have hset := leaves_redirecting s s.window.laneSelect (v.setWidth 15)
    have hdone := hset.quiet (leaves_retarget hset.lane .walk (LAddr.page (v.setWidth 15)))
    have hqueue := retarget_queue (s.redirecting s.window.laneSelect (v.setWidth 15)) s.window.laneSelect .walk
      (LAddr.page (v.setWidth 15))
    have hwindow := retarget_window (s.redirecting s.window.laneSelect (v.setWidth 15)) s.window.laneSelect .walk
      (LAddr.page (v.setWidth 15))
    rw [hset.lane] at hqueue
    rw [← redirectLane_eq hcursors] at hdone hqueue hwindow
    have hframe := hdone.frame
    rw [show (redirectLane s s.window.laneSelect (v.setWidth 15)).ints = s.ints from
      hdone.ints.trans (Interrupts.setting_zero _)] at hframe
    exact ⟨_, hexec, hdone.lane, hdone.others, hdone.entries, hqueue, hlookup, hwindow, hframe⟩

/-! ### LANE_CONFIG, LANE_SELECT and RECORD_WORDS -/

theorem laneOfField_eq {f : BitVec 4} {l : LaneId} (h : f.toNat = l.val) : laneOfField f = some l := by
  rw [laneOfField_named (h ▸ l.isLt)]
  exact congrArg some (Fin.ext h)

theorem index_cases (i : BitVec 3) : i = 0 ∨ i = 1 ∨ i = 2 ∨ i = 3 ∨ i = 4 ∨ i = 5 ∨ i = 6 ∨ i = 7 := code_cases i

/-- Settles O17, write by write, and the read by the copy and the read index. -/
theorem laneConfigurationSelectionAndRecordWords : Obligations.LaneConfigurationSelectionAndRecordWords := by
  intro s v hpin
  have hselect : exec (.laneSelectWrite v) s = .next (writeLaneSelect s v) :=
    congrArg Host.Outcome.next (unlessReset_run hpin _)
  refine ⟨?_, fun l hl => ?_, fun hl => ?_, ?_⟩
  · exact congrArg Host.Outcome.next (unlessReset_run hpin _)
  · rw [hselect, writeLaneSelect, laneOfField_eq hl]
  · rw [hselect, writeLaneSelect, laneOfField_none hl]
  · have hread : exec .recordWordsRead s = .next (recordWordsRead s) := by
      have hexec : exec .recordWordsRead s = .next (hostReading s recordWordsRead) := rfl
      rw [hexec, hostReading, hpin]
      rfl
    have hnext : ∀ i : BitVec 3, i + 1 = if i = 7 then 0 else i + 1 := by decide
    rw [hread, recordWordsRead, recordHalf, returnData, ← hnext]
    cases (s.lane s.window.laneSelect).progress.current with
    | none => rfl
    | some r =>
      rcases index_cases s.window.recordIndex with h | h | h | h | h | h | h | h <;> rw [h] <;> rfl

/-! ### The state just after a device reset -/

theorem reset_lane (l : LaneId) : State.reset.lane l = .reset := by
  simp [State.lane, State.reset, Vector.get]

theorem reset_port (p : PortId) : State.reset.port p = .reset := by
  simp [State.port, State.reset, Vector.get]

theorem reset_cursor (l : LaneId) (r : Role) : (State.reset.lane l).cursor r = .unset := by
  rw [reset_lane]
  cases r <;> rfl

/-- Settles O52, invariant by invariant. -/
theorem resetStateMeetsEveryInvariant : Obligations.ResetStateMeetsEveryInvariant := by
  refine ⟨memory_reset_wf, ?_, lanesConsistent_reset rfl rfl, ?_, ?_, ?_, ?_, ?_, ?_⟩
  · exact ⟨Nat.zero_le 32, fun k hk => absurd hk (Nat.not_lt_zero k)⟩
  · intro l w h
    rw [reset_lane] at h
    contradiction
  · intro l h
    rw [reset_lane] at h
    contradiction
  · refine ⟨List.nodup_nil, fun l r => ?_, fun l r => ?_, fun k hk => ?_, fun l r _ => ?_, fun l _ r => reset_cursor l r⟩
    · rw [reset_cursor]
      simp [State.reset, Cursor.unset]
    · rw [reset_cursor]
      simp [State.reset, Cursor.unset]
    · contradiction
    · rw [reset_cursor]
      rfl
  · intro l r target h
    rw [reset_cursor] at h
    contradiction
  · refine ⟨fun p => ?_, fun b hb => by contradiction⟩
    rw [reset_port]
    decide
  · exact ⟨by decide, by decide, fun t ht => by contradiction, fun _ => ⟨rfl, rfl⟩⟩

end Sys2Proof.Machine
end

section
/-! SUPPORT. What the items of the window read, as their fields in a row: a field of several parts reads as its parts, each at
its own bit (11.4 to 11.7); O2. -/

namespace Sys2Proof.Machine

/-! ### Fields -/

theorem bitAt_eq (b : Bool) (n : Nat) : bitAt b n = fieldAt (BitVec.ofBool b) n := by
  refine BitVec.eq_of_getLsbD_eq fun i hi => ?_
  rw [getLsbD_bitAt, getLsbD_fieldAt]
  by_cases e : n = i
  · simp [e, Bool.and_comm]
  · by_cases h : n ≤ i
    · have : i - n ≠ 0 := by omega
      simp [e, this]
    · simp [e, h]

/-- Two parts in a row read as the low part at the bit number and the high part above it. -/
theorem fieldAt_append {a b : Nat} (x : BitVec a) (y : BitVec b) (n : Nat) :
    fieldAt (x ++ y) n = fieldAt y n ||| fieldAt x (n + b) := by
  refine BitVec.eq_of_getLsbD_eq fun i hi => ?_
  simp only [BitVec.getLsbD_or, getLsbD_fieldAt, BitVec.getLsbD_append, hi, decide_true, Bool.true_and]
  by_cases low : i - n < b
  · have : ¬ n + b ≤ i := by omega
    simp [low, this]
  · have high : y.getLsbD (i - n) = false := BitVec.getLsbD_of_ge y _ (by omega)
    have same : n ≤ i ↔ n + b ≤ i ∨ b = 0 ∧ n ≤ i := by omega
    by_cases h : n + b ≤ i
    · have : n ≤ i := by omega
      simp [low, h, this, high, Nat.sub_sub]
    · have : ¬ n ≤ i := by omega
      simp [h, this]

@[simp] theorem fieldAt_zero (w n : Nat) : fieldAt 0#w n = 0 := by simp [fieldAt]

/-- A halfword reads as itself. -/
theorem fieldAt_self (v : Half) : fieldAt v 0 = v := by simp [fieldAt]

/-- A number of few digits reads as a field of that many bits. -/
theorem natHalf_shift {n w : Nat} (k : Nat) (h : n < 2 ^ w) : natHalf n <<< k = fieldAt (BitVec.ofNat w n) k := by
  have e : natHalf n = (BitVec.ofNat w n).setWidth 16 := BitVec.eq_of_toNat_eq <| by simp [natHalf, Nat.mod_eq_of_lt h]
  rw [e, fieldAt]

theorem globalStatus_fields (s : State) : globalStatus s =
    fieldAt ((0 : BitVec 12) ++ BitVec.ofBool s.wheel.swapPending ++ BitVec.ofBool (s.wheel.active == .b) ++
      BitVec.ofBool s.wheel.running ++ BitVec.ofBool s.clearing) 0 := by
  simp [globalStatus, ↓fieldAt_append, bitAt_eq, BitVec.or_assoc]

theorem viewLaneState_fields (x : Lane) : viewLaneState x =
    fieldAt (Deferred.code x.deferred ++ HaltReason.code x.haltReason ++
          BitVec.ofBool (Resume.held x.resume).queue ++ BitVec.ofBool (Resume.held x.resume).port ++
          BitVec.ofBool (Resume.held x.resume).map ++ BitVec.ofBool x.reasons.queue ++ BitVec.ofBool x.reasons.port ++
          BitVec.ofBool x.reasons.map ++ x.phase.code ++ x.state.code) 0 := by
  simp [viewLaneState, ↓fieldAt_append, bitAt_eq, BitVec.or_assoc]

theorem viewLaneParts_fields (x : Lane) : viewLaneParts x =
    fieldAt ((x.pendingPost.map fun e => e.kind.code).getD 0 ++ BitVec.ofBool (x.wait.any Wait.postOnTimeout) ++
          BitVec.ofBool (x.wait.any Wait.consume) ++ BitVec.ofBool (x.portWait.any fun w => w.dir == .tx) ++
          (x.portWait.map fun w => BitVec.ofNat 2 w.port.val).getD 0 ++ Resume.code x.resume ++
          BitVec.ofBool x.fault.isSome ++ BitVec.ofBool x.portWait.isSome ++ BitVec.ofBool x.wait.isSome ++
          BitVec.ofBool x.pendingPost.isSome ++ BitVec.ofBool x.repeatRecord.isSome ++
          BitVec.ofBool x.progress.current.isSome) 0 := by
  simp only [viewLaneParts, ↓fieldAt_append, bitAt_eq, BitVec.or_assoc]
  have port (p : PortId) : natHalf p.val <<< 8 = fieldAt (BitVec.ofNat 2 p.val) 8 := natHalf_shift 8 p.isLt
  cases x.portWait <;> cases x.wait <;> cases x.pendingPost <;> simp [port, BitVec.or_assoc]

theorem viewLaneConfig_fields (x : Lane) : viewLaneConfig x =
    fieldAt ((0 : BitVec 10) ++ BitVec.ofBool x.config.spare ++ BitVec.ofBool x.config.step ++ x.config.burstField) 0 := by
  simp [viewLaneConfig, ↓fieldAt_append, bitAt_eq, BitVec.or_assoc]

theorem viewLaneProgress_fields (x : Lane) : viewLaneProgress x =
    fieldAt (x.dst.status.code ++ x.src.status.code ++ x.hop.status.code ++ x.walk.status.code ++ (0 : BitVec 1) ++
          BitVec.ofNat 2 x.credit ++ BitVec.ofNat 3 x.progress.hopCount ++ x.progress.resolveTarget.code) 0 := by
  simp [viewLaneProgress, ↓fieldAt_append, BitVec.or_assoc]

theorem viewPartTag_eq (x : Lane) : viewPartTag x = ((x.wait.map Wait.tag).or (x.pendingPost.map PendingPost.tag)).getD 0 := by
  rw [viewPartTag]
  cases x.wait <;> cases x.pendingPost <;> rfl

theorem viewFaultInfo_fields (x : Lane) : viewFaultInfo x =
    fieldAt ((0 : BitVec 7) ++ BitVec.ofNat 3 ((x.fault.map FaultRecord.hopCount).getD 0) ++
          (x.fault.map fun f => f.role.code).getD 0 ++ (x.fault.map fun f => f.cause.code).getD 0) 0 := by
  rw [viewFaultInfo]
  cases x.fault <;> simp [↓fieldAt_append, BitVec.or_assoc]

theorem viewHeadId_fields (s : State) : viewHeadId s =
    fieldAt ((s.queue.entries.head?.map fun e =>
          (0 : BitVec 1) ++ e.kind.code ++ BitVec.ofNat 4 e.lane.val ++ e.sequence).getD 0) 0 := by
  have lane (l : LaneId) : natHalf l.val <<< 8 = fieldAt (BitVec.ofNat 4 l.val) 8 :=
    natHalf_shift 8 (l.isLt.trans (by decide))
  rw [viewHeadId]
  cases s.queue.entries with
  | nil => rfl
  | cons e rest =>
    rw [List.head?_cons, Option.map_some, Option.getD_some]
    simp [↓fieldAt_append, lane, BitVec.or_assoc]

theorem headItem_eq (s : State) (f : Entry → Half) : headItem s f = (s.queue.entries.head?.map f).getD 0 := by
  rw [headItem]
  cases s.queue.entries <;> rfl

theorem viewPortConfig_fields (y : Port) : viewPortConfig y =
    fieldAt (y.txSignal ++ y.rxSignal ++ (0 : BitVec 2) ++ BitVec.ofBool y.txSignalEnable ++
          BitVec.ofBool y.rxSignalEnable ++ (0 : BitVec 2) ++ BitVec.ofBool y.txEnable ++ BitVec.ofBool y.rxEnable) 0 := by
  simp [viewPortConfig, ↓fieldAt_append, bitAt_eq, BitVec.or_assoc]

theorem viewPortStatus_fields {y : Port} (rx : y.rxFifo.length ≤ 32) (tx : y.txFifo.length ≤ 32) : viewPortStatus y =
    fieldAt (BitVec.ofNat 6 y.txFifo.length ++ BitVec.ofNat 6 y.rxFifo.length ++ (0 : BitVec 1) ++
          BitVec.ofBool y.frameErrorFlag ++ BitVec.ofBool y.underrunFlag ++ BitVec.ofBool y.overrunFlag) 0 := by
  have level {n : Nat} (h : n ≤ 32) (k : Nat) : natHalf n <<< k = fieldAt (BitVec.ofNat 6 n) k := natHalf_shift k (by omega)
  simp [viewPortStatus, ↓fieldAt_append, bitAt_eq, level rx, level tx, BitVec.or_assoc]

/-! ### Reads by offset -/

theorem hostAccess_read {s : State} (hpin : s.resetPin = false) (offset : WindowOffset) :
    hostAccess s offset .read = readItem s (itemAt offset) := if_neg (by simp [hpin])

/-- A read by offset of an item that has no action of its own returns what the item reads. -/
theorem readsAs_of_item {s : State} {offset : WindowOffset} {i : Item} {v : Half} (hpin : s.resetPin = false)
    (item : itemAt offset = i) (plain : readItem s i = returnData s (itemRead s i)) (reads : itemRead s i = v) :
    ReadsAs s offset v := by
  change Host.Outcome.next (hostAccess s offset .read) = _
  rw [hostAccess_read hpin, item, plain, reads]
  rfl

/-! ### Which item an offset names -/

theorem toNat_alignOffset (offset : WindowOffset) : (alignOffset offset).toNat = offset.toNat / 2 * 2 := by
  have shifts : alignOffset offset = (offset >>> 1) <<< 1 := by
    refine BitVec.eq_of_getLsbD_eq fun i hi => ?_
    interval_cases i <;> simp [alignOffset]
  rw [shifts]
  simp [Nat.shiftRight_eq_div_pow, Nat.shiftLeft_eq]
  omega

/-- Which half of a 32-bit item an even offset holds, by how far it stands above a multiple of 4. -/
theorem halfAt_low (n : Nat) : halfAt (4 * n) = .low := if_pos (by omega)

theorem halfAt_high (n : Nat) : halfAt (4 * n + 2) = .high := if_neg (by omega)

theorem itemAt_map_block {offset : WindowOffset} {n : Nat} {page : BitVec 7} (aligned : (alignOffset offset).toNat = n)
    (entry : (n - 0x200) / 4 = page.toNat) (low : 0x200 ≤ n) : itemAt offset = .split (.mapEntry page) (halfAt n) := by
  have high : ¬ 0x400 ≤ n := by omega
  simp [itemAt, aligned, high, low, entry]

theorem itemAt_aperture_block {offset : WindowOffset} {n : Nat} {w : BitVec 8} (aligned : (alignOffset offset).toNat = n)
    (word : (n - 0x400) / 4 = w.toNat) (low : 0x400 ≤ n) : itemAt offset = .split (.aperture w) (halfAt n) := by
  simp [itemAt, aligned, low, word]

theorem itemAt_mapEntry (page : BitVec 7) :
    itemAt (0x200 + BitVec.ofNat 11 (4 * page.toNat)) = .split (.mapEntry page) .low ∧
      itemAt (0x202 + BitVec.ofNat 11 (4 * page.toNat)) = .split (.mapEntry page) .high := by
  constructor
  · rw [← halfAt_low (0x80 + page.toNat)]
    exact itemAt_map_block (by rw [toNat_alignOffset]; bv_omega) (by omega) (by omega)
  · rw [← halfAt_high (0x80 + page.toNat)]
    exact itemAt_map_block (by rw [toNat_alignOffset]; bv_omega) (by omega) (by omega)

theorem itemAt_aperture (w : BitVec 8) :
    itemAt (0x400 + BitVec.ofNat 11 (4 * w.toNat)) = .split (.aperture w) .low ∧
      itemAt (0x402 + BitVec.ofNat 11 (4 * w.toNat)) = .split (.aperture w) .high := by
  constructor
  · rw [← halfAt_low (0x100 + w.toNat)]
    exact itemAt_aperture_block (by rw [toNat_alignOffset]; bv_omega) (by omega) (by omega)
  · rw [← halfAt_high (0x100 + w.toNat)]
    exact itemAt_aperture_block (by rw [toNat_alignOffset]; bv_omega) (by omega) (by omega)

theorem itemAt_portItem {offset : WindowOffset} {p : PortId} (k : Nat)
    (aligned : (alignOffset offset).toNat = 0x0C0 + 16 * p.val + k)
    (h : k < 16 := by decide) : itemAt offset = portItem p k := by
  have block : Fin.ofNat 4 ((0x0C0 + 16 * p.val + k - 0x0C0) / 16) = p := Fin.ext <| by simp; omega
  have within : (0x0C0 + 16 * p.val + k - 0x0C0) % 16 = k := by omega
  simp only [itemAt, aligned]
  rw [if_neg (by omega), if_neg (by omega), if_neg (by omega), if_neg (by omega), if_neg (by omega), if_pos (by omega),
    block, within]

theorem itemAt_portBlock : ∀ p : PortId,
    itemAt (0x0C0 + BitVec.ofNat 11 (16 * p.val)) = .portConfig p ∧
      itemAt (0x0C2 + BitVec.ofNat 11 (16 * p.val)) = .portMarks p ∧
      itemAt (0x0C4 + BitVec.ofNat 11 (16 * p.val)) = .split (.idleWord p) .low ∧
      itemAt (0x0C6 + BitVec.ofNat 11 (16 * p.val)) = .split (.idleWord p) .high ∧
      itemAt (0x0C8 + BitVec.ofNat 11 (16 * p.val)) = .portStatus p ∧
      itemAt (0x0CA + BitVec.ofNat 11 (16 * p.val)) = .portCounter p .overruns ∧
      itemAt (0x0CC + BitVec.ofNat 11 (16 * p.val)) = .portCounter p .underruns ∧
      itemAt (0x0CE + BitVec.ofNat 11 (16 * p.val)) = .portCounter p .frameErrors := by
  intro p
  have port := p.isLt
  refine ⟨itemAt_portItem 0x0 ?_, itemAt_portItem 0x2 ?_, itemAt_portItem 0x4 ?_, itemAt_portItem 0x6 ?_,
      itemAt_portItem 0x8 ?_, itemAt_portItem 0xA ?_, itemAt_portItem 0xC ?_, itemAt_portItem 0xE ?_⟩ <;>
    rw [toNat_alignOffset] <;> bv_omega

theorem itemAt_align (offset : WindowOffset) : itemAt (offset ||| 1) = itemAt (offset &&& 0x7FE) := by
  have align : alignOffset (offset ||| 1) = alignOffset (offset &&& 0x7FE) := by
    refine BitVec.eq_of_getLsbD_eq fun i hi => ?_
    interval_cases i <;> simp [alignOffset]
  rw [itemAt, align, itemAt]

/-- A read by offset of an item that reads as fields in a row. -/
theorem readsAs_of_fields {s : State} {offset : WindowOffset} {i : Item} {v : Half} (hpin : s.resetPin = false)
    (item : itemAt offset = i) (plain : readItem s i = returnData s (itemRead s i)) (fields : itemRead s i = fieldAt v 0) :
    ReadsAs s offset v :=
  readsAs_of_item hpin item plain (fields.trans (fieldAt_self v))

/-- A field alone in its item: the bits above it read 0. -/
theorem fieldAt_extend (k : Nat) {w : Nat} (v : BitVec w) : fieldAt v 0 = fieldAt ((0 : BitVec k) ++ v) 0 := by
  simp [fieldAt_append]

/-- A summary item reads the lanes in its state, one bit each, and nothing else changes. -/
theorem reads_summary {s : State} {offset : WindowOffset} {i : Item} (st : LaneState) (hpin : s.resetPin = false)
    (item : itemAt offset = i) (plain : readItem s i = returnData s (itemRead s i)) (reads : itemRead s i = laneSummary s st) :
    Runs (.unusedOffsetAccess offset .read) s fun t =>
      (∀ l : LaneId, t.window.readData.getLsbD l.val = decide ((s.lane l).state = st)) ∧
        t.window.readData.extractLsb' 12 4 = 0 ∧
        t = { s with window := { s.window with readData := t.window.readData } } :=
  ⟨_, readsAs_of_item hpin item plain reads, getLsbD_laneSummary s st, laneSummary_high s st, rfl⟩

/-- A read by offset of an item is what the command of its own row does. -/
theorem read_of_item {s : State} {offset : WindowOffset} {i : Item} (hpin : s.resetPin = false) (item : itemAt offset = i) :
    exec (.unusedOffsetAccess offset .read) s = .next (readItem s i) := by
  change Host.Outcome.next (hostAccess s offset .read) = _
  rw [hostAccess_read hpin, item]

/-! ### Items of a part that may be absent -/

theorem itemRead_repeatAddress {s : State} {x : Lane} (hx : s.lane s.window.laneSelect = x) :
    itemRead s .repeatAddress = fieldAt ((x.repeatRecord.map RepeatRecord.address).getD 0) 0 := by
  rw [itemRead, hx]
  cases x.repeatRecord <;> simp

theorem itemRead_repeatRemaining {s : State} {x : Lane} (hx : s.lane s.window.laneSelect = x) :
    itemRead s .repeatRemaining = BitVec.ofNat 16 ((x.repeatRecord.map RepeatRecord.remaining).getD 0) := by
  rw [itemRead, hx]
  cases x.repeatRecord <;> rfl

theorem itemRead_waitMask {s : State} {x : Lane} (hx : s.lane s.window.laneSelect = x) :
    itemRead s .waitMask = (x.wait.map Wait.mask).getD 0 := by
  rw [itemRead, hx]
  cases x.wait <;> rfl

theorem itemRead_waitTimeout {s : State} {x : Lane} (hx : s.lane s.window.laneSelect = x) :
    itemRead s .waitTimeout = BitVec.ofNat 16 ((x.wait.map Wait.timeoutLeft).getD 0) := by
  rw [itemRead, hx]
  cases x.wait <;> rfl

theorem itemRead_faultRecordAddress {s : State} {x : Lane} (hx : s.lane s.window.laneSelect = x) :
    itemRead s .faultRecordAddress = fieldAt ((x.fault.map FaultRecord.recordAddress).getD 0) 0 := by
  rw [itemRead, hx]
  cases x.fault <;> simp

theorem itemRead_faultOffending {s : State} {x : Lane} (hx : s.lane s.window.laneSelect = x) :
    itemRead s .faultOffending = fieldAt ((x.fault.map FaultRecord.offending).getD 0) 0 := by
  rw [itemRead, hx]
  cases x.fault <;> simp

theorem itemRead_queueHeadAddress (s : State) : itemRead s .queueHeadAddress =
    fieldAt ((s.queue.entries.head?.map Entry.recordAddress).getD 0) 0 := by
  rw [itemRead, headItem_eq]
  cases s.queue.entries.head? <;> simp

/-- Two page fields of a halfword, a page at each byte. -/
theorem fieldAt_pages (low high : BitVec 7) :
    fieldAt low 0 ||| fieldAt high 8 = fieldAt ((0 : BitVec 1) ++ high ++ (0 : BitVec 1) ++ low) 0 := by
  simp [↓fieldAt_append]

theorem fieldAt_marks (low high : BitVec 5) :
    fieldAt low 0 ||| fieldAt high 8 = fieldAt ((0 : BitVec 3) ++ high ++ (0 : BitVec 3) ++ low) 0 := by
  simp [↓fieldAt_append]

/-- Settles O2: each row names its item, the item's fields stand in the row as the view builds them, and the halves of a
32-bit item and RECORD_WORDS are read by the command of their own row. -/
theorem readsByOffsetReturnTheItem : Obligations.ReadsByOffsetReturnTheItem := by
  intro s hpin
  have item {offset : WindowOffset} {v : Half} (i : Item) (reads : itemRead s i = v) (named : itemAt offset = i := by rfl)
      (plain : readItem s i = returnData s (itemRead s i) := by rfl) : ReadsAs s offset v :=
    readsAs_of_item hpin named plain reads
  have fields {offset : WindowOffset} {v : Half} (i : Item) (reads : itemRead s i = fieldAt v 0)
      (named : itemAt offset = i := by rfl) (plain : readItem s i = returnData s (itemRead s i) := by rfl) :
      ReadsAs s offset v := readsAs_of_fields hpin named plain reads
  have low {offset : WindowOffset} (i : Item32) (named : itemAt offset = .split i .low) :
      exec (.unusedOffsetAccess offset .read) s = exec (.splitLowRead i) s :=
    (read_of_item hpin named).trans (congrArg Host.Outcome.next (if_neg (by simp [hpin])).symm)
  have high {offset : WindowOffset} (i : Item32) (named : itemAt offset = .split i .high) :
      exec (.unusedOffsetAccess offset .read) s = exec (.splitHighRead i) s :=
    (read_of_item hpin named).trans (congrArg Host.Outcome.next (if_neg (by simp [hpin])).symm)
  refine ⟨?global, ?summaries, ?lane, ?queue, ?ports, ?tables, ?splits, ?idleWords, ?map, ?aperture, ?odd, ?codes⟩
  case global =>
    simp only [List.forall_mem_cons, List.not_mem_nil, false_implies, implies_true, and_true]
    exact ⟨item .vendorCode rfl, item .partCode rfl, item .revision rfl, fields .globalStatus (globalStatus_fields s),
      item .globalCommand rfl, item .commandResult rfl, fields .aperturePage (fieldAt_extend 10 _),
      fields .intStatus (fieldAt_extend 8 _), fields .intEnable (fieldAt_extend 8 _),
      fields .refusalCause (fieldAt_extend 12 _), fields .refusalOffset (fieldAt_extend 5 _),
      fields .refusalCount (fieldAt_extend 8 _), item .signals rfl, item .signalSet rfl, item .signalClear rfl,
      item .wheelPosition rfl, fields .tableSelect ((bitAt_eq _ 0).trans (fieldAt_extend 15 _)), item .slotPeriod rfl,
      item .wheelRotation rfl, item .overrunCount rfl, item .laneCommand rfl, item .laneArgument rfl,
      item .laneResult rfl, item .laneSelect rfl⟩
  case summaries =>
    simp only [List.forall_mem_cons, List.not_mem_nil, false_implies, implies_true, and_true]
    exact ⟨reads_summary _ hpin rfl rfl rfl, reads_summary _ hpin rfl rfl rfl⟩
  case lane =>
    rintro x rfl
    simp only [List.forall_mem_cons, List.not_mem_nil, false_implies, implies_true, and_true]
    exact ⟨fields .laneState (viewLaneState_fields _), fields .laneParts (viewLaneParts_fields _),
      fields .recordPointer (fieldAt_extend 1 _), fields .laneConfig (viewLaneConfig_fields _),
      fields .laneProgress (viewLaneProgress_fields _), fields .resolvedSource (fieldAt_extend 1 _),
      fields .resolvedDestination (fieldAt_extend 1 _), item .remaining rfl, fields .sourcePosition (fieldAt_extend 1 _),
      fields .destinationPosition (fieldAt_extend 1 _),
      fields .repeatAddress ((itemRead_repeatAddress rfl).trans (fieldAt_extend 1 _)),
      item .repeatRemaining (itemRead_repeatRemaining rfl), item .waitMask (itemRead_waitMask rfl),
      item .waitTimeout (itemRead_waitTimeout rfl), item .partTag (viewPartTag_eq _),
      fields .faultInfo (viewFaultInfo_fields _),
      fields .faultRecordAddress ((itemRead_faultRecordAddress rfl).trans (fieldAt_extend 1 _)),
      fields .faultOffending ((itemRead_faultOffending rfl).trans (fieldAt_extend 1 _)), item .missedSlots rfl,
      fields .cursorPagesA (fieldAt_pages _ _), fields .cursorPagesB (fieldAt_pages _ _)⟩
  case queue =>
    simp only [List.forall_mem_cons, List.not_mem_nil, false_implies, implies_true, and_true]
    exact ⟨fields .queueHeadId (viewHeadId_fields s), item .queueHeadTag (headItem_eq s _),
      fields .queueHeadAddress ((itemRead_queueHeadAddress s).trans (fieldAt_extend 1 _)),
      item .queueHeadStamp (headItem_eq s _), item .queueLevel rfl, fields .queueNextSequence (fieldAt_extend 8 _),
      fields .queueThreshold (fieldAt_extend 11 _), item .queuePop rfl⟩
  case ports =>
    rintro p y rfl rx tx
    obtain ⟨config, marks, -, -, status, overruns, underruns, frameErrors⟩ := itemAt_portBlock p
    simp only [List.forall_mem_cons, List.not_mem_nil, false_implies, implies_true, and_true]
    exact ⟨fields (.portConfig p) (viewPortConfig_fields _) config, fields (.portMarks p) (fieldAt_marks _ _) marks,
      fields (.portStatus p) (viewPortStatus_fields rx tx) status, item (.portCounter p .overruns) rfl overruns,
      item (.portCounter p .underruns) rfl underruns, item (.portCounter p .frameErrors) rfl frameErrors⟩
  case tables =>
    refine fun e => ⟨?_, ?_⟩
    · rintro x rfl
      exact item (.scheduleEntry .a e) rfl (by revert e; decide)
    · rintro x rfl
      exact item (.scheduleEntry .b e) rfl (by revert e; decide)
  case splits =>
    simp only [List.forall_mem_cons, List.not_mem_nil, false_implies, implies_true, and_true]
    exact ⟨low .slotCount rfl, high .slotCount rfl, low .beats rfl, high .beats rfl,
      (read_of_item hpin rfl).trans (congrArg Host.Outcome.next (if_neg (by simp [hpin])).symm)⟩
  case idleWords =>
    intro p
    obtain ⟨-, -, lowHalf, highHalf, -⟩ := itemAt_portBlock p
    exact ⟨low (.idleWord p) lowHalf, high (.idleWord p) highHalf⟩
  case map =>
    intro page
    obtain ⟨lowHalf, highHalf⟩ := itemAt_mapEntry page
    exact ⟨low (.mapEntry page) lowHalf, high (.mapEntry page) highHalf⟩
  case aperture =>
    intro w
    obtain ⟨lowHalf, highHalf⟩ := itemAt_aperture w
    exact ⟨low (.aperture w) lowHalf, high (.aperture w) highHalf⟩
  case odd =>
    intro offset
    rw [read_of_item hpin (itemAt_align offset), read_of_item hpin rfl]
  case codes =>
    exact ⟨rfl, rfl, rfl, fun _ => ⟨rfl, rfl⟩, fun _ _ => rfl, rfl, fun _ => rfl, rfl, rfl, rfl, rfl, rfl, rfl⟩

end Sys2Proof.Machine
end

section
/-! SUPPORT. A deferred request plays no part in a beat's results: they are made alike, with the same verdict, whether one is
held or not (R34, R72). -/

namespace Sys2Proof.Machine

/-- A lane context with nothing deferred. -/
abbrev Lane.undeferred (x : Lane) : Lane := { x with deferred := none }

theorem State.undeferred_eq (s : State) (l : LaneId) : s.undeferred l = s.updLane l Lane.undeferred := rfl

theorem State.undeferred_lane (s : State) (l k : LaneId) :
    (s.undeferred l).lane k = if k = l then (s.lane k).undeferred else s.lane k := by
  rw [State.undeferred_eq, State.lane_updLane]
  split
  · next e => rw [e]
  · rfl

/-- What a reading of a lane that does not look at the request gives. -/
theorem State.undeferred_read {α : Type} (f : Lane → α) (s : State) (l k : LaneId)
    (hf : ∀ x : Lane, f x.undeferred = f x := by exact fun _ => rfl) : f ((s.undeferred l).lane k) = f (s.lane k) := by
  rw [State.undeferred_lane]
  split
  · exact hf _
  · rfl

section
variable (s : State) (l : LaneId)

@[simp] theorem State.undeferred_window : (s.undeferred l).window = s.window := rfl
@[simp] theorem State.undeferred_signals : (s.undeferred l).signals = s.signals := rfl
@[simp] theorem State.undeferred_port (p : PortId) : (s.undeferred l).port p = s.port p := rfl

@[simp] theorem State.undeferred_progress (k : LaneId) : ((s.undeferred l).lane k).progress = (s.lane k).progress :=
  State.undeferred_read Lane.progress s l k

@[simp] theorem State.undeferred_repeatRecord (k : LaneId) :
    ((s.undeferred l).lane k).repeatRecord = (s.lane k).repeatRecord := State.undeferred_read Lane.repeatRecord s l k

@[simp] theorem State.undeferred_pendingPost (k : LaneId) :
    ((s.undeferred l).lane k).pendingPost = (s.lane k).pendingPost := State.undeferred_read Lane.pendingPost s l k

@[simp] theorem State.undeferred_config (k : LaneId) : ((s.undeferred l).lane k).config = (s.lane k).config :=
  State.undeferred_read Lane.config s l k

@[simp] theorem State.undeferred_cursor (k : LaneId) (r : Role) :
    ((s.undeferred l).lane k).cursor r = (s.lane k).cursor r :=
  State.undeferred_read (Lane.cursor · r) s l k fun _ => by cases r <;> rfl

/-- A change of a lane that neither looks at the request nor changes it. -/
@[simp] theorem State.updLane_undeferred (k : LaneId) {f : Lane → Lane} (hf : ∀ x : Lane, f x.undeferred = (f x).undeferred) :
    (s.undeferred l).updLane k f = (s.updLane k f).undeferred l := by
  have lanes : ((s.undeferred l).updLane k f).lanes = ((s.updLane k f).undeferred l).lanes := by
    refine State.lanes_ext fun i => ?_
    by_cases ki : i = k
    · subst ki
      by_cases li : i = l <;> simp [State.undeferred_lane, li, hf]
    · simp [State.undeferred_lane, State.lane_updLane_other _ _ ki]
  calc (s.undeferred l).updLane k f = { s with lanes := ((s.undeferred l).updLane k f).lanes } := rfl
    _ = (s.updLane k f).undeferred l := by rw [lanes]; rfl

@[simp] theorem State.setCursor_undeferred (k : LaneId) (r : Role) (c : Cursor) :
    ((s.undeferred l).updLane k fun x => x.setCursor r c) = (s.updLane k fun x => x.setCursor r c).undeferred l :=
  State.updLane_undeferred s l k fun _ => by cases r <;> rfl

/-! ### The operations on cursors, the record copy and the queue -/

@[simp] theorem State.enqueue_undeferred (k : LaneId) (r : Role) (page : BitVec 7) :
    (s.undeferred l).enqueue k r page = (s.enqueue k r page).undeferred l := by
  rw [State.enqueue, State.setCursor_undeferred]
  rfl

@[simp] theorem retarget_undeferred (k : LaneId) (r : Role) (page : BitVec 7) :
    retarget (s.undeferred l) k r page = (retarget s k r page).undeferred l := by
  unfold retarget
  simp only [State.undeferred_cursor, State.enqueue_undeferred, State.setCursor_undeferred]
  cases ((s.lane k).cursor r).status with
  | unset => rfl
  | pending => rfl
  | inFlight =>
    dsimp only
    split <;> rfl
  | mapped =>
    dsimp only
    split <;> rfl

@[simp] theorem release_undeferred (k : LaneId) (r : Role) :
    release (s.undeferred l) k r = (release s k r).undeferred l := by
  unfold release
  simp only [State.undeferred_cursor, State.setCursor_undeferred]
  cases ((s.lane k).cursor r).status <;> rfl

@[simp] theorem releaseAll_undeferred (k : LaneId) : releaseAll (s.undeferred l) k = (releaseAll s k).undeferred l := by
  simp [releaseAll, allRoles]

@[simp] theorem touchCopy_undeferred (k : LaneId) : touchCopy (s.undeferred l) k = (touchCopy s k).undeferred l := by
  unfold touchCopy
  rw [State.undeferred_window]
  split <;> rfl

@[simp] theorem dropCopy_undeferred (k : LaneId) : dropCopy (s.undeferred l) k = (dropCopy s k).undeferred l := by
  unfold dropCopy
  simp only [State.undeferred_progress, State.updLane_undeferred, touchCopy_undeferred, implies_true]
  split <;> rfl

@[simp] theorem push_undeferred (k : LaneId) (kind : EntryKind) (tag : Half) :
    push (s.undeferred l) k kind tag = (push s k kind tag).map (·.undeferred l) := by
  rcases Nat.lt_or_ge s.queue.entries.length 32 with room | full
  · rw [push_eq room, push_eq (s := s.undeferred l) room, State.pushed, State.undeferred_progress]
    rfl
  · rw [push_full full, push_full (s := s.undeferred l) full]
    rfl

/-! ### Verdicts, wakes and signals -/

@[simp] theorem State.setInt_undeferred (b : IntBit) : (s.undeferred l).setInt b = (s.setInt b).undeferred l := rfl

@[simp] theorem settle_undeferred (k : LaneId) (reasons : Reasons) :
    settle (s.undeferred l) k reasons = (settle s k reasons).undeferred l :=
  State.updLane_undeferred s l k fun _ => rfl

@[simp] theorem enterHalted_undeferred (k : LaneId) (reason : HaltReason) (resume : Resume) :
    enterHalted (s.undeferred l) k reason resume = (enterHalted s k reason resume).undeferred l := by
  simp [enterHalted]

@[simp] theorem enterFaulted_undeferred (k : LaneId) (f : FaultRecord) :
    enterFaulted (s.undeferred l) k f = (enterFaulted s k f).undeferred l := by
  simp [enterFaulted]

theorem completeAdvance_undeferred (k : LaneId) : completeAdvance (s.undeferred l) k =
    ((completeAdvance s k).1.undeferred l, (completeAdvance s k).2) := by
  simp only [completeAdvance, dropCopy_undeferred, State.updLane_undeferred, State.undeferred_progress, retarget_undeferred,
    implies_true]
  split <;> rfl

@[simp] theorem applyVerdict_undeferred (k : LaneId) (step : Bool) (v : Verdict) :
    applyVerdict (s.undeferred l) k step v = (applyVerdict s k step v).undeferred l := by
  cases v with
  | completed => cases step <;> simp [applyVerdict]
  | idle => simp [applyVerdict, enterIdleAtStop]
  | _ => simp [applyVerdict]

@[simp] theorem completeWait_undeferred (k : LaneId) : completeWait (s.undeferred l) k = (completeWait s k).undeferred l := by
  simp [completeWait, completeAdvance_undeferred]

@[simp] theorem isWaiter_undeferred (n : SignalId) : isWaiter (s.undeferred l) n = isWaiter s n := by
  funext k
  rw [isWaiter, State.undeferred_read Lane.state, State.undeferred_read Lane.wait, isWaiter]

@[simp] theorem consumes_undeferred : consumes (s.undeferred l) = consumes s := by
  funext k
  rw [consumes, State.undeferred_read Lane.wait, consumes]

@[simp] theorem wokenBy_undeferred (n : SignalId) : wokenBy (s.undeferred l) n = wokenBy s n := by
  simp only [wokenBy, isWaiter_undeferred, consumes_undeferred]

theorem foldl_completeWait_undeferred (ks : List LaneId) :
    ks.foldl completeWait (s.undeferred l) = (ks.foldl completeWait s).undeferred l := by
  induction ks generalizing s with
  | nil => rfl
  | cons k ks ih => rw [List.foldl_cons, completeWait_undeferred, ih, List.foldl_cons]

@[simp] theorem setSignal_undeferred (n : SignalId) : setSignal (s.undeferred l) n = (setSignal s n).undeferred l := by
  simp only [setSignal, State.undeferred_signals, wokenBy_undeferred, consumes_undeferred]
  split
  · rfl
  · rw [← foldl_completeWait_undeferred]
    split <;> rfl

@[simp] theorem setSignals_undeferred (mask : Half) :
    setSignals (s.undeferred l) mask = (setSignals s mask).undeferred l := by
  unfold setSignals
  induction allSignals generalizing s with
  | nil => rfl
  | cons n ns ih =>
    simp only [List.foldl_cons, setSignal_undeferred]
    split <;> exact ih _

@[simp] theorem satisfyWait_undeferred (mask : Half) (consume : Bool) :
    satisfyWait (s.undeferred l) mask consume = (satisfyWait s mask consume).map (·.undeferred l) := by
  unfold satisfyWait
  rw [State.undeferred_signals]
  split
  · split <;> rfl
  · rfl

/-! ### The results -/

/-- Results whose state holds no request. -/
def undeferredResult (result : State × Verdict) : State × Verdict := (result.1.undeferred l, result.2)

@[simp] theorem undeferredResult_mk (t : State) (v : Verdict) : undeferredResult l (t, v) = (t.undeferred l, v) := rfl

theorem completeAdvance_undeferredResult : completeAdvance (s.undeferred l) l = undeferredResult l (completeAdvance s l) :=
  completeAdvance_undeferred s l l

theorem setUpTransfer_undeferred (r : RecordCopy) (source destination : LAddr) :
    setUpTransfer (s.undeferred l) l r source destination = undeferredResult l (setUpTransfer s l r source destination) := by
  simp [setUpTransfer]

theorem beginResolution_undeferred (target : ResolveTarget) (cell : LAddr) :
    beginResolution (s.undeferred l) l target cell = undeferredResult l (beginResolution s l target cell) := by
  cases target <;> simp [beginResolution]

theorem takeLink_undeferred (target : LAddr) :
    takeLink (s.undeferred l) l target = undeferredResult l (takeLink s l target) := by
  simp [takeLink]

theorem takePendingPost_undeferred (kind : EntryKind) (tag : Half) :
    takePendingPost (s.undeferred l) l kind tag = undeferredResult l (takePendingPost s l kind tag) := by
  simp [takePendingPost]

theorem endResolution_undeferred : endResolution (s.undeferred l) l = (endResolution s l).undeferred l := by
  simp [endResolution]

theorem dispatchMove_undeferred (r : RecordCopy) :
    dispatchMove (s.undeferred l) l r = undeferredResult l (dispatchMove s l r) := by
  simp only [dispatchMove, beginResolution_undeferred, setUpTransfer_undeferred, State.updLane_undeferred, implies_true]
  split
  · rfl
  · split <;> rfl

theorem actLink_undeferred (r : RecordCopy) (target : LAddr) (hops : Nat) {finish : State → State}
    (hfinish : finish (s.undeferred l) = (finish s).undeferred l) :
    actLink (s.undeferred l) l r target hops finish = undeferredResult l (actLink s l r target hops finish) := by
  simp only [actLink, State.undeferred_repeatRecord, State.undeferred_progress, hfinish]
  split
  · rfl
  · simp [takeLink_undeferred]
  · split <;> simp [completeAdvance_undeferredResult]

theorem dispatchLink_undeferred (r : RecordCopy) :
    dispatchLink (s.undeferred l) l r = undeferredResult l (dispatchLink s l r) := by
  unfold dispatchLink
  split
  · exact beginResolution_undeferred s l _ _
  · exact actLink_undeferred s l r _ _ rfl

theorem dispatchPost_undeferred (r : RecordCopy) :
    dispatchPost (s.undeferred l) l r = undeferredResult l (dispatchPost s l r) := by
  simp only [dispatchPost, push_undeferred]
  cases push s l .post r.tag with
  | none => exact takePendingPost_undeferred s l _ _
  | some t => exact completeAdvance_undeferredResult t l

theorem dispatchStop_undeferred (r : RecordCopy) :
    dispatchStop (s.undeferred l) l r = undeferredResult l (dispatchStop s l r) := by
  simp only [dispatchStop, push_undeferred]
  split
  · cases push s l .stop r.tag with
    | none => exact takePendingPost_undeferred s l _ _
    | some t => rfl
  · rfl

theorem dispatchWait_undeferred (r : RecordCopy) :
    dispatchWait (s.undeferred l) l r = undeferredResult l (dispatchWait s l r) := by
  simp only [dispatchWait, satisfyWait_undeferred]
  cases satisfyWait s r.mask r.consume with
  | none => simp
  | some t => exact completeAdvance_undeferredResult t l

theorem dispatchRecord_undeferred (r : RecordCopy) :
    dispatchRecord (s.undeferred l) l r = undeferredResult l (dispatchRecord s l r) := by
  unfold dispatchRecord
  split
  · exact dispatchMove_undeferred s l r
  · exact dispatchLink_undeferred s l r
  · exact dispatchPost_undeferred s l r
  · exact dispatchWait_undeferred s l r
  · rw [dispatchRaise, setSignals_undeferred]
    exact completeAdvance_undeferredResult _ l
  · exact dispatchStop_undeferred s l r
  · rfl

theorem loadResult_undeferred (r : RecordCopy) :
    loadResult (s.undeferred l) l r = undeferredResult l (loadResult s l r) := by
  simp only [loadResult, State.undeferred_progress]
  split
  · rfl
  · split
    · simp
    · exact dispatchRecord_undeferred s l r

theorem resolveResult_undeferred (r : RecordCopy) (cell : Word) :
    resolveResult (s.undeferred l) l r cell = undeferredResult l (resolveResult s l r cell) := by
  have ended {t : State} : endResolution (t.undeferred l) l = (endResolution t l).undeferred l := endResolution_undeferred t l
  simp only [resolveResult, State.undeferred_progress, State.updLane_undeferred, retarget_undeferred, implies_true,
    beginResolution_undeferred, setUpTransfer_undeferred, ended]
  split
  · rfl
  · split
    · split
      · rfl
      · rfl
    · split
      · split <;> rfl
      · rfl
      · split
        · exact actLink_undeferred s l r _ _ (by simp [ended])
        · rfl

theorem completeMove_undeferred (r : RecordCopy) :
    completeMove (s.undeferred l) l r = undeferredResult l (completeMove s l r) := by
  unfold completeMove
  split <;> simp [completeAdvance_undeferredResult]

theorem finishMove_undeferred (r : RecordCopy) :
    finishMove (s.undeferred l) l r = undeferredResult l (finishMove s l r) := by
  simp only [finishMove, push_undeferred]
  split
  · cases push s l .moveDone r.tag with
    | none => exact takePendingPost_undeferred s l _ _
    | some t => exact completeMove_undeferred t l r
  · exact completeMove_undeferred s l r

theorem crossPages_undeferred (r : RecordCopy) (src dst : BeatCursor) :
    crossPages (s.undeferred l) l r src dst = (crossPages s l r src dst).undeferred l := by
  simp only [crossPages, State.undeferred_progress, retarget_undeferred]
  split <;> split <;> simp

theorem transferResult_undeferred (r : RecordCopy) (src dst : BeatCursor) (stop : Stop) :
    transferResult (s.undeferred l) l r src dst stop = undeferredResult l (transferResult s l r src dst stop) := by
  simp only [transferResult, State.undeferred_progress, State.undeferred_port, finishMove_undeferred, crossPages_undeferred]
  cases stop with
  | portEmpty q =>
    simp only [apply_ite (undeferredResult l), undeferredResult_mk]
    rfl
  | portFull q =>
    simp only [apply_ite (undeferredResult l), undeferredResult_mk]
    rfl
  | _ => rfl

theorem finishResult_undeferred (r : RecordCopy) (held : PendingPost) :
    finishResult (s.undeferred l) l r held = undeferredResult l (finishResult s l r held) := by
  simp only [finishResult, push_undeferred]
  cases push s l held.kind held.tag with
  | none => rfl
  | some t =>
    simp only [Option.map_some, State.updLane_undeferred, implies_true]
    split
    · exact completeMove_undeferred _ l r
    · rfl
    · exact completeAdvance_undeferredResult _ l

/-- The results of a beat do not look at the request. -/
theorem beatResult_undeferred (work : BeatWork) :
    beatResult (s.undeferred l) l work = undeferredResult l (beatResult s l work) := by
  simp only [beatResult, State.undeferred_progress, State.undeferred_pendingPost]
  split
  · exact loadResult_undeferred s l _
  · exact dispatchRecord_undeferred s l _
  · exact resolveResult_undeferred s l _ _
  · exact transferResult_undeferred s l _ _ _ _
  · split
    · exact finishResult_undeferred s l _ _
    · rfl
  · rfl

end
end Sys2Proof.Machine
end

section
/-! SUPPORT. The lookup unit stays sound, cursor by cursor, through the results of a beat and the wakes they cause (R104 to
R107, R124). -/

namespace Sys2Proof.Machine

/-- The lookup unit is sound for every cursor. -/
abbrev State.CursorsSound (s : State) : Prop := ∀ l r, s.CursorSound l r

theorem State.CursorsSound.tidy {s : State} (h : s.CursorsSound) (l : LaneId) : (s.lane l).tidy := fun r => (h l r).unset

/-- A change of neither the lookup unit nor a cursor keeps it sound. -/
theorem State.CursorsSound.congr {s t : State} (h : s.CursorsSound) (hmap : t.map = s.map)
    (hcursor : ∀ l, (t.lane l).cursor = (s.lane l).cursor) : t.CursorsSound :=
  fun l r => (h l r).congr hmap (congrFun (hcursor l) r)

theorem State.CursorsSound.updLane {s : State} {l : LaneId} {f : Lane → Lane} (h : s.CursorsSound)
    (hf : ∀ x, (f x).cursor = x.cursor := by exact fun _ => rfl) : (s.updLane l f).CursorsSound := by
  refine h.congr rfl fun k => ?_
  rw [State.lane_updLane]
  split
  · next e => rw [hf, e]
  · rfl

/-- A lookup that is live or stale for a cursor. -/
def MapUnit.looksUp (m : MapUnit) (l : LaneId) (r : Role) : Prop :=
  ∃ k, m.lookup = some k ∧ k.disposition ≠ .abandoned ∧ k.lane = l ∧ k.role = r

/-- The marking of the lookup in progress as stale changes neither whose it is nor whether it is abandoned. -/
theorem looksUp_stale (m : MapUnit) (l : LaneId) (r : Role) :
    ({ m with lookup := m.lookup.map fun k => { k with disposition := k.disposition.toStale } } : MapUnit).looksUp l r ↔
      m.looksUp l r := by
  have stale (d : Disposition) : d.toStale = .abandoned ↔ d = .abandoned := by cases d <;> simp [Disposition.toStale]
  cases hk : m.lookup <;> simp [MapUnit.looksUp, hk, stale]

/-- Another cursor than the one an operation is for stays sound if the queue gains none of its requests. -/
theorem State.CursorSound.of_same {s t : State} {l : LaneId} {r : Role} (h : s.CursorSound l r)
    (hcursor : (t.lane l).cursor r = (s.lane l).cursor r) (hqueue : (l, r) ∈ t.map.queue → (l, r) ∈ s.map.queue)
    (hlookup : t.map.looksUp l r ↔ s.map.looksUp l r) : t.CursorSound l r :=
  ⟨fun hmem => hcursor ▸ h.queued (hqueue hmem), (hcursor ▸ h.lookedUp).trans hlookup.symm, hcursor ▸ h.unset⟩

/-- The other cursors of a state in which one cursor has been replaced. -/
theorem State.setCursor_other {s : State} {l j : LaneId} {r q : Role} (c : Cursor) (h : (j, q) ≠ (l, r)) :
    ((s.updLane l fun x => x.setCursor r c).lane j).cursor q = (s.lane j).cursor q := by
  by_cases e : j = l
  · subst e
    have hne : q ≠ r := fun eq => h (by rw [eq])
    rw [State.lane_updLane_same, Lane.cursor_setCursor_other _ _ hne]
  · rw [State.lane_updLane_other _ _ e]

theorem State.CursorsSound.enqueue {s : State} (h : s.CursorsSound) {l : LaneId} {r : Role} (page : BitVec 7)
    (hlook : ((s.lane l).cursor r).status ≠ .inFlight) : (s.enqueue l r page).CursorsSound := by
  intro j q
  by_cases e : (j, q) = (l, r)
  · obtain ⟨rfl, rfl⟩ := Prod.mk.inj e
    have hcursor : ((s.enqueue j q page).lane j).cursor q = ⟨page, .pending⟩ := by
      simp [State.lane_enqueue]
    refine ⟨fun _ => by rw [hcursor], ?_, by simp [hcursor]⟩
    rw [hcursor]
    have hnone : ¬ s.map.looksUp j q := fun hk => hlook ((h j q).lookedUp.mpr hk)
    exact iff_of_false (by simp) hnone
  · refine (h j q).of_same (State.setCursor_other _ e) (fun hmem => ?_) Iff.rfl
    have : (j, q) ∈ s.map.queue ++ [(l, r)] := hmem
    simpa [e] using this

/-- A cursor that keeps its status, with any page unless it is UNSET, stays sound. -/
theorem State.CursorsSound.setCursor {s : State} (h : s.CursorsSound) {l : LaneId} {r : Role} {c : Cursor}
    (hstatus : c.status = ((s.lane l).cursor r).status) (hset : c.status ≠ .unset) :
    (s.updLane l fun x => x.setCursor r c).CursorsSound := by
  intro j q
  by_cases e : (j, q) = (l, r)
  · obtain ⟨rfl, rfl⟩ := Prod.mk.inj e
    have hcursor : ((s.updLane j fun x => x.setCursor q c).lane j).cursor q = c := by simp
    have hsame : (((s.updLane j fun x => x.setCursor q c).lane j).cursor q).status = ((s.lane j).cursor q).status := by
      rw [hcursor, hstatus]
    refine ⟨fun hmem => hsame.trans ((h j q).queued hmem), ?_, fun hunset => absurd (hcursor ▸ hunset) hset⟩
    rw [hsame]
    exact (h j q).lookedUp
  · exact (h j q).of_same (State.setCursor_other _ e) id Iff.rfl

theorem State.CursorsSound.markStale {s : State} (h : s.CursorsSound) : s.markStale.CursorsSound :=
  fun j q => (h j q).of_same rfl id (looksUp_stale s.map j q)

theorem State.CursorsSound.retarget {s : State} (h : s.CursorsSound) (l : LaneId) (r : Role) (page : BitVec 7) :
    (retarget s l r page).CursorsSound := by
  unfold Machine.retarget
  dsimp only
  cases e : ((s.lane l).cursor r).status with
  | unset => exact h.enqueue page (by simp [e])
  | pending => exact h.setCursor e.symm (by simp)
  | inFlight =>
    dsimp only
    split
    · exact h
    · exact (h.setCursor (c := ⟨page, .inFlight⟩) e.symm (by simp)).markStale
  | mapped target =>
    dsimp only
    split
    · exact h
    · exact h.enqueue page (by simp [e])

/-- The release of a cursor abandons its own lookup and no other (R107). -/
theorem looksUp_withoutCursor (m : MapUnit) (l j : LaneId) (r q : Role) :
    (m.withoutCursor l r).looksUp j q ↔ m.looksUp j q ∧ (j, q) ≠ (l, r) := by
  cases hk : m.lookup with
  | none => simp [MapUnit.looksUp, MapUnit.withoutCursor, hk]
  | some k =>
    by_cases own : k.lane = l ∧ k.role = r
    · simp [MapUnit.looksUp, MapUnit.withoutCursor, hk, own]
      grind
    · simp [MapUnit.looksUp, MapUnit.withoutCursor, hk, own]
      grind

theorem State.CursorsSound.release {s : State} (h : s.CursorsSound) (l : LaneId) (r : Role) :
    (release s l r).CursorsSound := by
  rw [release_eq (h l r)]
  intro j q
  by_cases e : (j, q) = (l, r)
  · obtain ⟨rfl, rfl⟩ := Prod.mk.inj e
    have hcursor : ((s.unsetCursor j q).lane j).cursor q = .unset := by simp [State.unsetCursor]
    refine ⟨fun hmem => ?_, ?_, fun _ => by rw [hcursor]; rfl⟩
    · simp [State.unsetCursor, MapUnit.withoutCursor] at hmem
    · rw [hcursor]
      exact iff_of_false (by simp [Cursor.unset]) fun hk => ((looksUp_withoutCursor s.map j j q q).mp hk).2 rfl
  · refine (h j q).of_same (State.setCursor_other .unset e) (fun hmem => (List.mem_filter.mp hmem).1) ?_
    exact (looksUp_withoutCursor s.map l j r q).trans (and_iff_left e)

theorem State.CursorsSound.releaseAll {s : State} (h : s.CursorsSound) (l : LaneId) : (releaseAll s l).CursorsSound :=
  (((h.release l .walk).release l .hop).release l .src).release l .dst

theorem State.CursorsSound.dropCopy {s : State} (h : s.CursorsSound) (l : LaneId) : (dropCopy s l).CursorsSound := by
  refine h.congr (dropCopy_map s l) fun k => ?_
  by_cases e : k = l
  · rw [e, (leaves_dropCopy rfl).lane]
    rfl
  · rw [(onlyLane_dropCopy s l).others k e]

theorem State.CursorsSound.enterFaulted {s : State} (h : s.CursorsSound) (l : LaneId) (f : FaultRecord) :
    (enterFaulted s l f).CursorsSound := by
  rw [Machine.enterFaulted]
  have hdone := (h.releaseAll l).updLane (l := l) (f := fun x =>
    { x with
      state := .faulted, reasons := .empty, portWait := none, wait := none, haltReason := none
      resume := none, deferred := none, credit := 0, fault := some f })
  exact hdone.congr rfl fun _ => rfl

theorem State.CursorsSound.takeLink {s : State} (h : s.CursorsSound) (l : LaneId) (target : LAddr) :
    (takeLink s l target).1.CursorsSound :=
  ((h.dropCopy l).updLane (l := l)).retarget l .walk target.page

theorem State.CursorsSound.applyVerdict_completed {s : State} (h : s.CursorsSound) (l : LaneId) (step : Bool) :
    (applyVerdict s l step .completed).CursorsSound := by
  refine h.congr (applyVerdict_completed_map s l step) fun k => ?_
  have hdone := leaves_applyVerdict_completed (s := s) (l := l) rfl step
  by_cases e : k = l
  · rw [e, hdone.lane]
    unfold Lane.enterActive
    split <;> try split
    all_goals rfl
  · rw [hdone.others k e]

/-- A WAIT that completes keeps the lookup unit sound (R125). -/
theorem State.CursorsSound.completeWait {s : State} (h : s.CursorsSound) (l : LaneId) : (completeWait s l).CursorsSound := by
  have hended : (s.updLane l fun x => { x with wait := none }).CursorsSound := h.updLane
  unfold Machine.completeWait
  generalize (s.updLane l fun x => { x with wait := none }) = t at hended ⊢
  dsimp only
  by_cases e : (t.lane l).progress.pointer = 0x7FFC
  · rw [completeAdvance_last e]
    exact State.CursorsSound.enterFaulted ((hended.dropCopy l).updLane) l _
  · rw [completeAdvance_next e]
    exact (hended.takeLink l _).applyVerdict_completed l _

end Sys2Proof.Machine
end

section
/-! SUPPORT. What the wakes of a beat make of the other lanes and of INT LANE_FAULT and LANE_HALT (R124, R125, R36, R41). -/

namespace Sys2Proof.Machine

/-- The interrupt bit that stands for the entry of a lane into a state (R140). -/
inductive EntryBit : Nat → LaneState → Prop
  | fault : EntryBit 1 .faulted
  | halt : EntryBit 2 .halted

/-- A lane other than `l` has entered a state. -/
def State.OtherEntered (s t : State) (l : LaneId) (into : LaneState) : Prop :=
  ∃ k, k ≠ l ∧ (t.lane k).state = into ∧ (s.lane k).state ≠ into

theorem State.othersEntered_iff (s t : State) (l : LaneId) (into : LaneState) :
    s.othersEntered t l into = true ↔ s.OtherEntered t l into := by
  simp [State.othersEntered, State.OtherEntered, mem_allLanes, and_assoc]

/-- From `s` to `t` lane `l` has stayed ACTIVE, no other lane has come to wait, and the interrupt bit has been set exactly by
the other lanes that entered its state. -/
structure Wakes (l : LaneId) (s : State) (i : Nat) (into : LaneState) (t : State) : Prop where
  sound : t.CursorsSound
  own : (t.lane l).state = .active
  waiting : ∀ k, k ≠ l → (t.lane k).state = .waiting → (s.lane k).state = .waiting
  entered : t.ints.status.getLsbD i = true ↔ s.ints.status.getLsbD i = true ∨ s.OtherEntered t l into

/-- An operation that keeps every lane's state and the interrupt bits keeps the account of the wakes. -/
theorem Wakes.congr {l : LaneId} {s t u : State} {i : Nat} {into : LaneState} (h : Wakes l s i into t)
    (sound : u.CursorsSound) (hstate : ∀ k, (u.lane k).state = (t.lane k).state)
    (hints : u.ints.status.getLsbD i = t.ints.status.getLsbD i) : Wakes l s i into u where
  sound := sound
  own := (hstate l).trans h.own
  waiting k hk hwaits := h.waiting k hk ((hstate k).symm.trans hwaits)
  entered := by
    simp only [hints, h.entered, State.OtherEntered, hstate]

theorem SameCores.state {s t : State} (h : SameCores s t) (k : LaneId) : (t.lane k).state = (s.lane k).state :=
  (congrArg Lane.state (h k) : (t.lane k).core.state = (s.lane k).core.state)

/-- The state a completed WAIT leaves its lane in, and the bit it sets with it. -/
theorem afterWait_state (x : Lane) {i : Nat} {into : LaneState} (hbit : EntryBit i into) :
    x.afterWait.state ≠ .waiting ∧
      ((completionInts x.progress.pointer x.config.step).getLsbD i = true ↔ x.afterWait.state = into) := by
  by_cases e : x.progress.pointer = 0x7FFC
  · rw [Lane.afterWait, Lane.completed_last (x := { x with wait := none }) e, completionInts_last e]
    cases hbit <;> simp [Lane.faultedWith]
  · rw [Lane.afterWait, Lane.completed_next (x := { x with wait := none }) e, completionInts_next e, Lane.jumped_eq]
    cases x.config.step with
    | true => cases hbit <;> simp [Lane.haltedBy]
    | false =>
      rw [if_neg Bool.false_ne_true, if_neg Bool.false_ne_true, Lane.enterActive]
      split <;> cases hbit <;> simp

theorem EntryBit.ne_waiting {i : Nat} {into : LaneState} (hbit : EntryBit i into) : into ≠ .waiting := by
  cases hbit <;> simp

/-- The wake of a lane that waited adds the lane to those that have entered a state if it enters it. -/
theorem OtherEntered.step {l k : LaneId} {s t u : State} {x : Lane} {mask : BitVec 8} {into : LaneState}
    (h : Leaves k x mask t u) (hk : k ≠ l) (hwaits : (t.lane k).state ≠ into) (hwaited : (s.lane k).state ≠ into) :
    s.OtherEntered u l into ↔ x.state = into ∨ s.OtherEntered t l into := by
  constructor
  · rintro ⟨j, hj, hinto, hnot⟩
    by_cases e : j = k
    · rw [e, h.lane] at hinto
      exact .inl hinto
    · rw [h.others j e] at hinto
      exact .inr ⟨j, hj, hinto, hnot⟩
  · rintro (hinto | ⟨j, hj, hinto, hnot⟩)
    · exact ⟨k, hk, by rw [h.lane, hinto], hwaited⟩
    · have e : j ≠ k := fun e => hwaits (e ▸ hinto)
      exact ⟨j, hj, by rw [h.others j e, hinto], hnot⟩

/-- The completion of another lane's WAIT keeps the account. -/
theorem Wakes.completeWait {l k : LaneId} {s t : State} {i : Nat} {into : LaneState} (hbit : EntryBit i into)
    (h : Wakes l s i into t) (hk : k ≠ l) (hwaits : (t.lane k).state = .waiting) : Wakes l s i into (completeWait t k) := by
  have hdone := leaves_completeWait (s := t) (l := k) (h.sound.tidy k)
  obtain ⟨hawake, hset⟩ := afterWait_state (t.lane k) hbit
  refine ⟨h.sound.completeWait k, (congrArg Lane.state (hdone.others l hk.symm)).trans h.own, fun j hj hj' => ?_, ?_⟩
  · by_cases e : j = k
    · rw [e, hdone.lane] at hj'
      exact absurd hj' hawake
    · rw [hdone.others j e] at hj'
      exact h.waiting j hj hj'
  · have hnot := hbit.ne_waiting.symm
    rw [hdone.ints, OtherEntered.step hdone hk (hwaits ▸ hnot) (h.waiting k hk hwaits ▸ hnot), ← hset]
    simp only [Interrupts.setting, BitVec.getLsbD_or, Bool.or_eq_true, h.entered]
    tauto

/-- The waiters of a signal complete their WAITs one after the other. -/
theorem Wakes.foldl_completeWait {l : LaneId} {s : State} {i : Nat} {into : LaneState} (hbit : EntryBit i into) :
    ∀ (ks : List LaneId) {t : State}, ks.Nodup → Wakes l s i into t → (∀ k ∈ ks, (t.lane k).state = .waiting) →
      Wakes l s i into (ks.foldl Machine.completeWait t)
  | [], _, _, h, _ => h
  | k :: ks, t, hnodup, h, hwaiting => by
    obtain ⟨hk, hks⟩ := List.nodup_cons.mp hnodup
    have hwaits := hwaiting k (by simp)
    have hne : k ≠ l := by
      rintro rfl
      simp [h.own] at hwaits
    refine Wakes.foldl_completeWait hbit ks hks (h.completeWait hbit hne hwaits) fun j hj => ?_
    rw [(onlyLane_completeWait t k).others j fun e => hk (e ▸ hj)]
    exact hwaiting j (by simp [hj])

theorem Wakes.setSignal {l : LaneId} {s t : State} {i : Nat} {into : LaneState} (hbit : EntryBit i into)
    (h : Wakes l s i into t) (n : SignalId) : Wakes l s i into (setSignal t n) := by
  rcases setSignal_eq t n with e | ⟨signals, e⟩ <;> rw [e]
  · exact h
  · have hset : Wakes l s i into (t.withSignals signals) := h.congr (h.sound.congr rfl fun _ => rfl) (fun _ => rfl) rfl
    exact Wakes.foldl_completeWait hbit _ (wokenBy_nodup t n) hset fun k hk => waiter_waiting (wokenBy_waiter hk)

/-- A push sets no bit but INT QUEUE (R132). -/
theorem pushed_entryBit (s : State) (l : LaneId) (kind : EntryKind) (tag : Half) {i : Nat} {into : LaneState}
    (hbit : EntryBit i into) : (s.pushed l kind tag).ints.status.getLsbD i = s.ints.status.getLsbD i := by
  simp only [State.pushed, Interrupts.setting, State.pushInts]
  split <;> cases hbit <;> simp

/-- An operation on the beat's lane that sets no bit keeps the account. -/
theorem Wakes.quiet {l : LaneId} {s t u : State} {i : Nat} {into : LaneState} {x : Lane} (h : Wakes l s i into t)
    (hu : Leaves l x 0 t u) (sound : u.CursorsSound) (cores : SameCores t u) : Wakes l s i into u :=
  h.congr sound cores.state (by rw [hu.ints]; simp [Interrupts.setting])

theorem keptByResults_wakes (l : LaneId) (s : State) {i : Nat} {into : LaneState} (hbit : EntryBit i into) :
    KeptByResults l (Wakes l s i into) where
  updLane h hf := h.congr (h.sound.updLane fun x => (hf x).2) (sameCores_updLane _ l _ fun x => (hf x).1).state rfl
  retarget r page h := h.quiet (leaves_retarget rfl r page) (h.sound.retarget l r page) (sameCores_retarget _ l r page)
  release r h := h.quiet (leaves_release rfl (h.sound.tidy l) r) (h.sound.release l r) (sameCores_release _ l r)
  dropCopy h := h.quiet (leaves_dropCopy rfl) (h.sound.dropCopy l) (sameCores_dropCopy _ l)
  pushed kind tag h := h.congr (h.sound.congr rfl fun _ => rfl) (fun _ => rfl) (pushed_entryBit _ l kind tag hbit)
  setSignal n h := h.setSignal hbit n
  clearSignal _ h := h.congr (h.sound.congr rfl fun _ => rfl) (fun _ => rfl) rfl

/-- Before its results a beat has woken no lane. -/
theorem wakes_taken {s : State} {b : Beat} (hsound : s.lookupsSound) (hactive : (s.lane b.lane).state = .active)
    {i : Nat} {into : LaneState} : Wakes b.lane s i into (s.taken b) := by
  have htaken := leaves_taken s b
  have hstate (k : LaneId) : ((s.taken b).lane k).state = (s.lane k).state := by
    by_cases e : k = b.lane
    · rw [e, htaken.lane]
    · exact congrArg Lane.state (htaken.others k e)
  refine ⟨State.CursorsSound.congr (fun l r => hsound.cursorSound l r) (s.taken_map b) fun k => ?_,
    (hstate b.lane).trans hactive, fun k _ hk => (hstate k).symm.trans hk, ?_⟩
  · by_cases e : k = b.lane
    · rw [e, htaken.lane]
      rfl
    · exact congrArg Lane.cursor (htaken.others k e)
  · simp only [State.taken_ints, State.OtherEntered, hstate]
    simp

/-- The wakes of a beat's results, from the state before the beat end on. -/
theorem wakes_results {s : State} {b : Beat} (hsound : s.lookupsSound) (hactive : (s.lane b.lane).state = .active)
    {i : Nat} {into : LaneState} (hbit : EntryBit i into) : Wakes b.lane s i into (s.results b).1 :=
  ((keptByResults_wakes b.lane s hbit).beatResult (wakes_taken hsound hactive) b.work).state

end Sys2Proof.Machine
end

section
/-! SUPPORT. What a verdict makes of the state, in full, and the deferred requests taken against it (R34); O47. -/

namespace Sys2Proof.Machine

/-! ### The verdict in full -/

/-- A lane that goes on with these block reasons, MAP added if a cursor its phase needs is not MAPPED (R23, R25). -/
def Lane.settled (x : Lane) (reasons : Reasons) : Lane :=
  let r : Reasons := { reasons with map := reasons.map || !x.neededMapped }
  { x with reasons := r, state := if r = .empty then .active else .blocked }

theorem settle_settled (s : State) (l : LaneId) (reasons : Reasons) :
    settle s l reasons = s.setLane l ((s.lane l).settled reasons) := rfl

/-- What a verdict makes of its lane (R14, R23, R25, R36, R37, R41). -/
def Lane.afterVerdict (x : Lane) (step : Bool) : Verdict → Lane
  | .run reasons portWait => ({ x with portWait := portWait } : Lane).settled reasons
  | .completed => if step then x.haltedBy .step .active else x.settled .empty
  | .waiting w => { x with state := .waiting, reasons := .empty, wait := some w, credit := 0 }
  | .breakHalt => x.haltedBy .breakFlag .active
  | .idle => x.stopped
  | .fault f => x.faultedWith f

/-- The interrupt bits a verdict sets (R140). -/
def Verdict.ints (step : Bool) : Verdict → BitVec 8
  | .run _ _ => 0
  | .completed => if step then 0x04 else 0
  | .waiting _ => 0
  | .breakHalt => 0x04
  | .idle => 0
  | .fault _ => 0x02

/-- Whether a verdict leaves the lane IDLE. -/
def Verdict.isIdle : Verdict → Bool
  | .idle => true
  | _ => false

/-- Whether a verdict leaves the lane FAULTED. -/
def Verdict.isFault : Verdict → Bool
  | .fault _ => true
  | _ => false

/-- The lookup unit after a verdict: IDLE and FAULTED release the lane's cursors (R14, R41). -/
def Verdict.mapAfter (v : Verdict) (m : MapUnit) (l : LaneId) : MapUnit :=
  if v.isIdle || v.isFault then m.without l else m

/-- The window after a verdict: IDLE drops the record copy (R14, R177). -/
def Verdict.windowAfter (v : Verdict) (w : Window) (l : LaneId) (copy : Bool) : Window :=
  if v.isIdle then { w with recordIndex := w.indexAfter l copy } else w

/-- The entry to IDLE at a STOP under a sound lookup unit, in full (R14). -/
theorem enterIdleAtStop_eq {s : State} {l : LaneId} (h : ∀ r, s.CursorSound l r) :
    enterIdleAtStop s l = { s.setLane l (s.lane l).stopped with
      map := s.map.without l
      window := { s.window with recordIndex := s.window.indexAfter l (s.lane l).progress.current.isSome } } := by
  rw [enterIdleAtStop, releaseAll_eq fun r => (h r).dropCopy, dropCopy_eq]
  simp only [State.updLane, State.withIndex_lane, State.withIndex_map, State.withIndex_setLane, State.withMap_lane,
    State.withMap_setLane, State.setLane_setLane, State.lane_setLane_same]
  rfl

/-- A verdict under a sound lookup unit, in full. -/
theorem applyVerdict_eq {s : State} {l : LaneId} (h : ∀ r, s.CursorSound l r) (step : Bool) (v : Verdict) :
    applyVerdict s l step v = { s.setLane l ((s.lane l).afterVerdict step v) with
      map := v.mapAfter s.map l
      ints := s.ints.setting (v.ints step)
      window := v.windowAfter s.window l (s.lane l).progress.current.isSome } := by
  have zero : s.ints.setting 0 = s.ints := Interrupts.setting_zero _
  cases v with
  | run reasons portWait =>
    rw [applyVerdict, settle_settled, Verdict.ints, zero]
    simp only [State.updLane, State.setLane_setLane, State.lane_setLane_same]
    rfl
  | completed =>
    cases step with
    | true => rfl
    | false =>
      rw [Verdict.ints, if_neg Bool.false_ne_true, zero]
      rfl
  | waiting w =>
    rw [Verdict.ints, zero]
    rfl
  | breakHalt => rfl
  | idle =>
    rw [applyVerdict, enterIdleAtStop_eq h, Verdict.ints, zero]
    rfl
  | fault f =>
    rw [applyVerdict, enterFaulted_eq h]
    rfl

/-! ### What a verdict leaves as it is -/

theorem Lane.afterVerdict_cleared (x : Lane) (step : Bool) (v : Verdict) (into : LaneState) :
    (x.afterVerdict step v).clearedTo into (x.afterVerdict step v).config = x.clearedTo into x.config := by
  cases v with
  | completed => cases step <;> rfl
  | _ => rfl

/-- Every verdict but IDLE keeps what FAULTED keeps. -/
theorem Lane.afterVerdict_faultedWith (x : Lane) (step : Bool) {v : Verdict} (h : v.isIdle = false) (f : FaultRecord) :
    (x.afterVerdict step v).faultedWith f = x.faultedWith f := by
  cases v with
  | completed => cases step <;> rfl
  | idle => contradiction
  | _ => rfl

theorem Lane.afterVerdict_progress (x : Lane) (step : Bool) {v : Verdict} (h : v.isIdle = false) :
    (x.afterVerdict step v).progress = x.progress := by
  cases v with
  | completed => cases step <;> rfl
  | idle => contradiction
  | _ => rfl

theorem MapUnit.without_without (m : MapUnit) (l : LaneId) : (m.without l).without l = m.without l := by
  cases hk : m.lookup with
  | none => simp [MapUnit.without, hk]
  | some k => by_cases e : k.lane = l <;> simp [MapUnit.without, hk, e]

theorem Verdict.mapAfter_without (v : Verdict) (m : MapUnit) (l : LaneId) : (v.mapAfter m l).without l = m.without l := by
  unfold Verdict.mapAfter
  split
  · exact m.without_without l
  · rfl

/-- The read index is 0 once the copy of the lane selected is dropped, at the verdict or after it. -/
theorem Verdict.windowAfter_dropped (v : Verdict) (w : Window) (l : LaneId) (x : Lane) (step : Bool) :
    ({ v.windowAfter w l x.progress.current.isSome with
      recordIndex := (v.windowAfter w l x.progress.current.isSome).indexAfter l
        (x.afterVerdict step v).progress.current.isSome } : Window) =
      { w with recordIndex := w.indexAfter l x.progress.current.isSome } := by
  cases hv : v.isIdle with
  | false => simp only [Verdict.windowAfter, hv, Bool.false_eq_true, if_false, Lane.afterVerdict_progress x step hv]
  | true =>
    cases v with
    | idle =>
      simp only [Verdict.windowAfter, Verdict.isIdle, if_true, Lane.afterVerdict, Lane.stopped, Option.isSome_none]
      simp [Window.indexAfter]
    | _ => contradiction

/-- The two bits as given, and every other bit kept. -/
theorem Interrupts.getLsbD_withLaneBits (i : Interrupts) (fault halt : Bool) (n : Nat) :
    (i.withLaneBits fault halt).status.getLsbD n =
      if n = 1 then fault else if n = 2 then halt else i.status.getLsbD n := by
  have high (m : Nat) : i.status.getLsbD (3 + m) = (decide (m < 5) && i.status.getLsbD (3 + m)) := by
    by_cases h : m < 5
    · simp [h]
    · simp [h, BitVec.getLsbD_of_ge i.status (3 + m) (by omega)]
  simp only [Interrupts.withLaneBits, BitVec.getLsbD_append, BitVec.getLsbD_extractLsb']
  rcases n with _ | _ | _ | n
  · simp
  · simp
  · simp
  · rw [if_neg (by omega), if_neg (by omega), if_neg (by omega), if_neg (by omega), if_neg (by omega), ← high]
    congr 1
    omega

theorem Interrupts.ext_bits {i j : Interrupts} (enable : i.enable = j.enable)
    (bits : ∀ n, i.status.getLsbD n = j.status.getLsbD n) : i = j := by
  obtain ⟨si, ei⟩ := i
  obtain ⟨sj, ej⟩ := j
  obtain rfl : ei = ej := enable
  obtain rfl : si = sj := BitVec.eq_of_getLsbD_eq fun n _ => bits n
  rfl

theorem Interrupts.withLaneBits_setting {i : Interrupts} {m : BitVec 8} (h : m = 0 ∨ m = 2 ∨ m = 4) (fault halt : Bool) :
    (i.setting m).withLaneBits fault halt = i.withLaneBits fault halt := by
  have others {n : Nat} (h1 : n ≠ 1) (h2 : n ≠ 2) : m.getLsbD n = false := by
    by_cases hn : n < 8
    · interval_cases n <;> rcases h with rfl | rfl | rfl <;> simp_all
    · exact BitVec.getLsbD_of_ge _ _ (by omega)
  refine Interrupts.ext_bits rfl fun n => ?_
  rw [Interrupts.getLsbD_withLaneBits, Interrupts.getLsbD_withLaneBits]
  split
  · rfl
  · split
    · rfl
    · next h1 h2 => simp [Interrupts.setting, others h1 h2]

theorem Interrupts.withLaneBits_self (i : Interrupts) :
    i.withLaneBits (i.status.getLsbD 1) (i.status.getLsbD 2) = i := by
  refine Interrupts.ext_bits rfl fun n => ?_
  rw [Interrupts.getLsbD_withLaneBits]
  split
  · next e => rw [e]
  · split
    · next e => rw [e]
    · rfl

theorem Interrupts.withLaneBits_fault (i : Interrupts) : i.withLaneBits true (i.status.getLsbD 2) = i.setting 0x02 := by
  refine Interrupts.ext_bits rfl fun n => ?_
  have two : (0x02 : BitVec 8).getLsbD n = decide (n = 1) := by
    by_cases h : n < 8
    · interval_cases n <;> rfl
    · rw [BitVec.getLsbD_of_ge _ _ (by omega), decide_eq_false (by omega)]
  rw [Interrupts.getLsbD_withLaneBits, Interrupts.setting, BitVec.getLsbD_or, two]
  by_cases h1 : n = 1
  · simp [h1]
  · by_cases h2 : n = 2 <;> simp [h1, h2]

theorem Verdict.ints_cases (step : Bool) (v : Verdict) : v.ints step = 0 ∨ v.ints step = 2 ∨ v.ints step = 4 := by
  cases v with
  | completed => cases step <;> simp [Verdict.ints]
  | _ => simp [Verdict.ints]

/-! ### The requests taken against a verdict -/

theorem othersEntered_applyVerdict (s c : State) (l : LaneId) (step : Bool) (v : Verdict) (into : LaneState) :
    s.othersEntered (applyVerdict c l step v) l into = s.othersEntered c l into := by
  have others := (onlyLane_applyVerdict c l step v).others
  rw [Bool.eq_iff_iff, State.othersEntered_iff, State.othersEntered_iff]
  refine exists_congr fun k => and_congr_right fun hk => ?_
  rw [others k hk]

/-- A state in which the results of a beat have been counted: its lookup unit is sound for the beat's lane, and INT LANE_FAULT
and LANE_HALT have been set exactly by the other lanes that entered FAULTED and HALTED since `s`. -/
structure Counted (s c : State) (l : LaneId) : Prop where
  sound : ∀ r, c.CursorSound l r
  fault : c.ints.status.getLsbD 1 = (s.ints.status.getLsbD 1 || s.othersEntered c l .faulted)
  halt : c.ints.status.getLsbD 2 = (s.ints.status.getLsbD 2 || s.othersEntered c l .halted)

section
variable {s c u : State} {l : LaneId} {step : Bool} {v : Verdict}

/-- The lane a verdict leaves. -/
theorem Counted.lane (h : Counted s c l) (hu : applyVerdict c l step v = u) :
    u.lane l = (c.lane l).afterVerdict step v := by
  rw [← hu, applyVerdict_eq h.sound]
  exact State.lane_setLane_same c l _

/-- ABORT clears the lane as the verdict would have left it, without the interrupt bits of the beat's own (R32, R34). -/
theorem Counted.abort (h : Counted s c l) (hu : applyVerdict c l step v = u) :
    clearLane c l .idle (c.lane l).config =
      { u.setLane l ((u.lane l).clearedTo .idle (u.lane l).config) with
        map := u.map.without l
        ints := u.ints.withLaneBits (s.ints.status.getLsbD 1 || s.othersEntered u l .faulted)
          (s.ints.status.getLsbD 2 || s.othersEntered u l .halted)
        window := { u.window with recordIndex := u.window.indexAfter l (u.lane l).progress.current.isSome } } := by
  have hlane := h.lane hu
  rw [hlane, Lane.afterVerdict_cleared, clearLane_eq h.sound, ← hu, othersEntered_applyVerdict,
    othersEntered_applyVerdict, ← h.fault, ← h.halt, applyVerdict_eq h.sound]
  dsimp only
  rw [v.mapAfter_without, v.windowAfter_dropped, Interrupts.withLaneBits_setting (v.ints_cases step),
    Interrupts.withLaneBits_self]
  simp [State.setLane]

/-- A deferred FAULT faults the lane at its addresses, unless the beat's own verdict is a fault or IDLE (R34, R41). -/
theorem Counted.faulted (h : Counted s c l) (hu : applyVerdict c l step v = u) (idle : v.isIdle = false)
    (cause : FaultCause) (role : Role) :
    enterFaulted c l (asyncRecord (c.lane l) cause role) =
      { u.setLane l ((u.lane l).faultedWith (asyncRecord (u.lane l) cause role)) with
        map := u.map.without l
        ints := u.ints.withLaneBits true (s.ints.status.getLsbD 2 || s.othersEntered u l .halted) } := by
  have hlane := h.lane hu
  have hrecord : asyncRecord ((c.lane l).afterVerdict step v) cause role = asyncRecord (c.lane l) cause role := by
    simp only [asyncRecord, Lane.afterVerdict_progress _ step idle]
  rw [hlane, hrecord, Lane.afterVerdict_faultedWith _ step idle, enterFaulted_eq h.sound, ← hu,
    othersEntered_applyVerdict, ← h.halt, applyVerdict_eq h.sound]
  dsimp only
  rw [v.mapAfter_without, Interrupts.withLaneBits_setting (v.ints_cases step), Interrupts.withLaneBits_fault]
  simp [State.setLane, Verdict.windowAfter, idle]

end

/-! ### The lane state a verdict leaves -/

theorem Lane.settled_state (x : Lane) (reasons : Reasons) :
    (x.settled reasons).state = .active ∨ (x.settled reasons).state = .blocked := by
  simp only [Lane.settled]
  split <;> simp

/-- FAULTED and IDLE are left by the verdicts of those names only. -/
theorem Lane.afterVerdict_state (x : Lane) (step : Bool) (v : Verdict) :
    ((x.afterVerdict step v).state = .idle ↔ v.isIdle = true) ∧
      ((x.afterVerdict step v).state = .faulted ↔ v.isFault = true) := by
  cases v with
  | run reasons portWait =>
    rcases Lane.settled_state { x with portWait := portWait } reasons with e | e <;>
      simp [Lane.afterVerdict, e, Verdict.isIdle, Verdict.isFault]
  | completed =>
    cases step with
    | true => simp [Lane.afterVerdict, Lane.haltedBy, Verdict.isIdle, Verdict.isFault]
    | false => rcases x.settled_state .empty with e | e <;> simp [Lane.afterVerdict, e, Verdict.isIdle, Verdict.isFault]
  | waiting w => simp [Lane.afterVerdict, Verdict.isIdle, Verdict.isFault]
  | breakHalt => simp [Lane.afterVerdict, Lane.haltedBy, Verdict.isIdle, Verdict.isFault]
  | idle => simp [Lane.afterVerdict, Lane.stopped, Verdict.isIdle, Verdict.isFault]
  | fault f => simp [Lane.afterVerdict, Lane.faultedWith, Verdict.isIdle, Verdict.isFault]

/-- HALTED is left by STEP and by BREAK, with INT LANE_HALT. -/
theorem Lane.afterVerdict_halted {x : Lane} {step : Bool} {v : Verdict} (h : (x.afterVerdict step v).state = .halted) :
    v.ints step = 0x04 ∧
      ((x.afterVerdict step v).haltReason = some .step ∨ (x.afterVerdict step v).haltReason = some .breakFlag) := by
  cases v with
  | run reasons portWait =>
    rcases Lane.settled_state { x with portWait := portWait } reasons with e | e <;> simp [Lane.afterVerdict, e] at h
  | completed =>
    cases step with
    | true => exact ⟨rfl, .inl rfl⟩
    | false => rcases x.settled_state .empty with e | e <;> simp [Lane.afterVerdict, e] at h
  | waiting w => simp [Lane.afterVerdict] at h
  | breakHalt => exact ⟨rfl, .inr rfl⟩
  | idle => simp [Lane.afterVerdict, Lane.stopped] at h
  | fault f => simp [Lane.afterVerdict, Lane.faultedWith] at h

end Sys2Proof.Machine
end

section
/-! SUPPORT. The beat end with a request deferred, against the beat end with none; O47. -/

namespace Sys2Proof.Machine

theorem State.taken_undeferred (s : State) (b : Beat) : (s.undeferred b.lane).taken b = (s.taken b).undeferred b.lane := by
  have hbeat : ({ s.undeferred b.lane with beat := none } : State) = ({ s with beat := none } : State).undeferred b.lane := rfl
  simp only [State.taken, takeProgress, hbeat, State.updLane_undeferred, touchCopy_undeferred, implies_true]
  split <;> rfl

theorem State.results_undeferred (s : State) (b : Beat) :
    (s.undeferred b.lane).results b = undeferredResult b.lane (s.results b) := by
  rw [State.results, State.taken_undeferred, beatResult_undeferred, State.results]

theorem countBeat_undeferred (s : State) (l : LaneId) : countBeat (s.undeferred l) l = countBeat s l := by
  rw [State.undeferred_eq, countBeat, State.updLane_updLane]
  rfl

/-- The state in which the results of a beat have been counted (R72 step 5). -/
def State.countedResults (s : State) (b : Beat) : State := countBeat (s.results b).1 b.lane

theorem exec_beatEnd_over {s : State} {b : Beat} (hpin : s.resetPin = false) (hb : s.beat = some b)
    (hover : b.work.over = true) :
    exec .beatEnd s = .next
      (takeDeferred (s.countedResults b) b.lane (s.lane b.lane).deferred b.step (s.results b).2) := by
  have hexec : exec .beatEnd s = .next (unlessReset s beatEnd) := rfl
  rw [hexec, unlessReset_run hpin, beatEnd_over hb hover, State.countedResults]

/-- With nothing deferred the same beat end takes its verdict in the same state. -/
theorem exec_beatEnd_undeferred {s : State} {b : Beat} (hpin : s.resetPin = false) (hb : s.beat = some b)
    (hover : b.work.over = true) :
    exec .beatEnd (s.undeferred b.lane) = .next
      (applyVerdict (s.countedResults b) b.lane b.step (s.results b).2) := by
  have hnone : ((s.undeferred b.lane).lane b.lane).deferred = none := by
    rw [State.undeferred_lane, if_pos rfl]
  have hresults := s.results_undeferred b
  rw [exec_beatEnd_over (s := s.undeferred b.lane) hpin hb hover, hnone, State.countedResults, hresults]
  simp only [takeDeferred, undeferredResult, countBeat_undeferred, State.countedResults]

/-- The account of a beat's wakes, once the beat is counted. -/
theorem counted_results {s : State} {b : Beat} (hsound : s.lookupsSound) (hactive : (s.lane b.lane).state = .active) :
    Counted s (s.countedResults b) b.lane := by
  have wakes {i : Nat} {into : LaneState} (hbit : EntryBit i into) :
      Wakes b.lane s i into (s.countedResults b) := by
    have h := wakes_results hsound hactive hbit
    have hcount := leaves_countBeat (s := (s.results b).1) (l := b.lane) rfl
    have hsame (k : LaneId) : ((s.countedResults b).lane k).state = ((s.results b).1.lane k).state ∧
        ((s.countedResults b).lane k).cursor = ((s.results b).1.lane k).cursor := by
      by_cases e : k = b.lane
      · rw [e, State.countedResults, hcount.lane]
        exact ⟨rfl, rfl⟩
      · rw [State.countedResults, hcount.others k e]
        exact ⟨rfl, rfl⟩
    exact h.congr (h.sound.congr rfl fun k => (hsame k).2) (fun k => (hsame k).1) rfl
  have bit {i : Nat} {into : LaneState} (hbit : EntryBit i into) : (s.countedResults b).ints.status.getLsbD i =
      (s.ints.status.getLsbD i || s.othersEntered (s.countedResults b) b.lane into) := by
    rw [Bool.eq_iff_iff, (wakes hbit).entered, Bool.or_eq_true, State.othersEntered_iff]
  exact ⟨(wakes .fault).sound b.lane, bit .fault, bit .halt⟩

/-- A beat leaves its lane IDLE only at a STOP (R14). -/
theorem results_idle {s : State} {b : Beat} (hsound : s.lookupsSound) (hactive : (s.lane b.lane).state = .active)
    (hidle : (s.results b).2.isIdle = true) : b.progress.current.bind RecordCopy.kind = some .stop := by
  have hresults := (keptByResults_wakes b.lane s .fault).beatResult (wakes_taken hsound hactive) b.work
  have hallowed : (s.results b).2.Allowed (((s.taken b).lane b.lane).progress.current.bind RecordCopy.kind = some .stop) :=
    hresults.verdict
  rw [State.taken_lane] at hallowed
  cases hv : (s.results b).2 with
  | idle =>
    rw [hv] at hallowed
    exact hallowed
  | _ => simp [hv, Verdict.isIdle] at hidle

/-! ### The requests -/

/-- A fault or an IDLE of the beat's own comes before a deferred FAULT (R34). -/
theorem takeDeferred_fault_kept {s : State} {l : LaneId} {step : Bool} {v : Verdict} (h : v.isFault = true ∨ v.isIdle = true)
    (cause : FaultCause) (role : Role) : takeDeferred s l (some (.fault cause role)) step v = applyVerdict s l step v := by
  cases v with
  | idle => rfl
  | fault f => rfl
  | _ => simp [Verdict.isFault, Verdict.isIdle] at h

theorem takeDeferred_fault_taken {s : State} {l : LaneId} {step : Bool} {v : Verdict} (hfault : v.isFault = false)
    (hidle : v.isIdle = false) (cause : FaultCause) (role : Role) :
    takeDeferred s l (some (.fault cause role)) step v = enterFaulted s l (asyncRecord (s.lane l) cause role) := by
  cases v with
  | idle => simp [Verdict.isIdle] at hidle
  | fault f => simp [Verdict.isFault] at hfault
  | _ => rfl

/-- HALT leaves a lane that has come to rest as it is (R34). -/
theorem haltNow_rest {s : State} {l : LaneId}
    (h : (s.lane l).state = .halted ∨ (s.lane l).state = .idle ∨ (s.lane l).state = .faulted) : haltNow s l = s := by
  rcases h with h | h | h <;> simp [haltNow, h]

/-! ### A transfer that stops at its burst -/

theorem results_burst {s : State} {b : Beat} {src dst : BeatCursor} {moved : Nat}
    (hwork : b.work = .transfer src dst moved none (some .burst)) (hcopy : b.progress.current.isSome = true) :
    s.results b = (s.taken b, .goOn) := by
  obtain ⟨r, hr⟩ := Option.isSome_iff_exists.mp hcopy
  simp [State.results, beatResult, hwork, hr, transferResult]

/-- The beat's lane once a beat without results of its own has been counted. -/
theorem leaves_served (s : State) (b : Beat) :
    Leaves b.lane ((s.lane b.lane).served b) 0 { s with beat := none } (countBeat (s.taken b) b.lane) :=
  (leaves_taken s b).quiet (leaves_countBeat (s.taken_lane b))

theorem setLane_served {s : State} {b : Beat} (hload : b.work.isLoad = false) (x : Lane) :
    (countBeat (s.taken b) b.lane).setLane b.lane x = { s.setLane b.lane x with beat := none } := by
  rw [countBeat, State.updLane, State.setLane_setLane, State.taken_setLane, hload]
  simp [Window.indexAfter]

theorem Lane.enterActive_haltedBy (x : Lane) (reason : HaltReason) :
    x.enterActive.haltedBy reason x.enterActive.resumeState =
      x.haltedBy reason (if x.neededMapped then .active else .blocked ⟨true, false, false⟩) := by
  unfold Lane.enterActive
  cases x.neededMapped <;> rfl

theorem Lane.enterActive_state (x : Lane) : x.enterActive.state = .active ∨ x.enterActive.state = .blocked := by
  unfold Lane.enterActive
  cases x.neededMapped <;> simp

theorem applyVerdict_goOn (s : State) (l : LaneId) (step : Bool) :
    applyVerdict s l step .goOn = s.setLane l ({ s.lane l with portWait := none } : Lane).enterActive := by
  rw [Verdict.goOn, applyVerdict, settle_empty_eq, State.updLane, State.setLane_setLane, State.lane_setLane_same]

/-- HALT of a lane that has just entered ACTIVE, checked (R30, R25). -/
theorem haltNow_entered (s : State) (l : LaneId) (x : Lane) :
    haltNow (s.setLane l x.enterActive) l =
      { s.setLane l (x.haltedBy .host (if x.neededMapped then .active else .blocked ⟨true, false, false⟩)) with
        ints := s.ints.setting 0x04 } := by
  have hlane := State.lane_setLane_same s l x.enterActive
  rw [haltNow_resumeState (by rw [hlane]; exact x.enterActive_state.imp_right .inl), State.setLane_setLane, hlane,
    Lane.enterActive_haltedBy]
  rfl

/-- Settles O47: the results of the beat are the same with nothing deferred; each request is taken against the verdict in the
state in which they have been counted. -/
theorem deferredRequestsAreTakenAtTheBeatEnd : Obligations.DeferredRequestsAreTakenAtTheBeatEnd := by
  intro s b hpin hb hover hsound hactive
  have hcounted := counted_results hsound hactive
  have hexec := exec_beatEnd_over hpin hb hover
  constructor
  · intro u hu
    have hverdict := Host.Outcome.next.inj ((exec_beatEnd_undeferred hpin hb hover).symm.trans hu)
    have hlane := hcounted.lane hverdict
    obtain ⟨hidle, hfault⟩ := Lane.afterVerdict_state ((s.countedResults b).lane b.lane) b.step (s.results b).2
    rw [← hlane] at hidle hfault
    have hkept (hrest : (s.results b).2.isFault = true ∨ (s.results b).2.isIdle = true) (cause : FaultCause) (role : Role) :=
      (takeDeferred_fault_kept (s := s.countedResults b) (l := b.lane) (step := b.step) hrest cause role).trans hverdict
    refine ⟨fun h => results_idle hsound hactive (hidle.mp h), fun h => ?_, fun cause role h => ⟨fun hu => ?_, fun hu => ?_⟩,
      fun h => ?_⟩ <;> rw [hexec, h]
    · exact congrArg _ (hcounted.abort hverdict)
    · exact congrArg _ (hkept (hu.imp hfault.mp hidle.mp) cause role)
    · have hnotIdle : (s.results b).2.isIdle = false := by
        rw [← Bool.not_eq_true, ← hidle]
        rcases hu with e | e | e | e <;> simp [e]
      have hnotFault : (s.results b).2.isFault = false := by
        rw [← Bool.not_eq_true, ← hfault]
        rcases hu with e | e | e | e <;> simp [e]
      rw [takeDeferred_fault_taken hnotFault hnotIdle]
      exact congrArg _ (hcounted.faulted hverdict hnotIdle cause role)
    · have hhalt : takeDeferred (s.countedResults b) b.lane (some .halt) b.step (s.results b).2 = haltNow u b.lane :=
        congrArg (haltNow · b.lane) hverdict
      rw [hhalt]
      refine ⟨fun hu => congrArg _ (haltNow_resumeState hu), fun hu => ?_, fun hu => congrArg _ (haltNow_rest (.inr hu))⟩
      obtain ⟨hbits, hreason⟩ := Lane.afterVerdict_halted (hlane ▸ hu)
      refine ⟨congrArg _ (haltNow_rest (.inl hu)), ?_, hlane ▸ hreason⟩
      rw [← hverdict, applyVerdict_eq hcounted.sound, hbits]
      simp [Interrupts.setting]
  · intro src dst moved hwork hcopy
    have hresults := results_burst (s := s) hwork hcopy
    have hcounts : s.countedResults b = countBeat (s.taken b) b.lane := by rw [State.countedResults, hresults]
    have hload : b.work.isLoad = false := by rw [hwork]; rfl
    have hserved := leaves_served s b
    have hmap : (countBeat (s.taken b) b.lane).map = s.map := s.taken_map b
    have hints : (countBeat (s.taken b) b.lane).ints = s.ints := s.taken_ints b
    rw [hresults, hcounts] at hexec
    refine ⟨fun cause role h => hexec.trans ?_, fun h => hexec.trans ?_⟩ <;> rw [h]
    · rw [takeDeferred_fault_taken rfl rfl, enterFaulted_eq (hsound.counted b), setLane_served hload, hserved.lane,
        hmap, hints]
      rfl
    · rw [takeDeferred, applyVerdict_goOn, haltNow_entered, setLane_served hload, hserved.lane, hints]
      rfl

end Sys2Proof.Machine
end

section
/-! SUPPORT. The slot tick part by part: what the decision of a slot, the advance of the wheel and the count of one lane's
timeout can change (R52 to R58, R126, R127). -/

namespace Sys2Proof.Machine

theorem Interrupts.getLsbD_setting (i : Interrupts) (mask : BitVec 8) (n : Nat) :
    (i.setting mask).status.getLsbD n = (i.status.getLsbD n || mask.getLsbD n) := BitVec.getLsbD_or

/-- A mask that is set or not, bit by bit. -/
theorem getLsbD_ite_zero (c : Bool) (mask : BitVec 8) (n : Nat) :
    (if c then mask else 0).getLsbD n = (c && mask.getLsbD n) := by
  cases c <;> simp

/-! ### The beginning of a beat -/

/-- A lane whose phase's cursors are all MAPPED has work for a beat (R24, R69). -/
theorem Lane.beatWork_of_neededMapped {x : Lane} (h : x.neededMapped = true) : x.beatWork.isSome = true := by
  have mapped {c : Cursor} (hc : c.isMapped = true) : ∃ k, c.forBeat = some k := by
    unfold Cursor.isMapped at hc
    split at hc
    · next target e => exact ⟨_, by rw [Cursor.forBeat, e]⟩
    · contradiction
  cases hphase : x.phase <;>
    simp only [Lane.neededMapped, hphase, Phase.needs, List.all_cons, List.all_nil, Bool.and_true, Bool.and_eq_true,
      Lane.cursor] at h <;>
    simp only [Lane.beatWork, hphase]
  case load => obtain ⟨k, hk⟩ := mapped h; simp [hk]
  case dispatch => rfl
  case resolve => obtain ⟨k, hk⟩ := mapped h; simp [hk]
  case transfer =>
    obtain ⟨a, ha⟩ := mapped h.1
    obtain ⟨b, hb⟩ := mapped h.2
    simp [ha, hb]
  case finish => rfl

theorem State.beatFor_of_ready {s : State} {l : LaneId} (h : s.ready l = true) : (s.beatFor l).isSome = true := by
  rw [State.beatFor, Option.isSome_map]
  exact Lane.beatWork_of_neededMapped (State.ready_iff.mp h).2.1

/-- With no beat in progress, the beat of a lane begins (R59, R69). -/
theorem beginBeat_eq {s : State} (h : s.beat = none) (l : LaneId) : beginBeat s l = { s with beat := s.beatFor l } := by
  unfold beginBeat State.beatFor
  dsimp only
  cases (s.lane l).beatWork with
  | none => rw [Option.map_none, ← h]
  | some work => rfl

/-! ### The decision of a slot -/

/-- What the decision of a slot leaves as it is: of a lane at most the credit and the missed slots change, and nothing of one
that waits; of the wheel at most the rotation pointer and the overrun count (R52 to R56). -/
structure SlotDecided (s u : State) : Prop where
  lanes : ∀ l, u.lane l = { s.lane l with credit := (u.lane l).credit, missed := (u.lane l).missed }
  waiting : ∀ l, (s.lane l).state = .waiting → u.lane l = s.lane l
  wheel : u.wheel = { s.wheel with rotation := u.wheel.rotation, overruns := u.wheel.overruns }
  rest : u = { s with lanes := u.lanes, beat := u.beat, wheel := u.wheel, ints := u.ints }

theorem SlotDecided.refl (s : State) : SlotDecided s s := ⟨fun _ => rfl, fun _ _ => rfl, rfl, rfl⟩

theorem SlotDecided.trans {s t u : State} (h : SlotDecided s t) (g : SlotDecided t u) : SlotDecided s u where
  lanes l := by rw [g.lanes l, h.lanes l]
  waiting l hl := by
    have hkept := h.waiting l hl
    rw [g.waiting l (by rw [hkept, hl]), hkept]
  wheel := by rw [g.wheel, h.wheel]
  rest := by rw [g.rest, h.rest]

theorem slotDecided_beginBeat (s : State) (l : LaneId) : SlotDecided s (beginBeat s l) := by
  have hframe := beginBeat_frame s l
  generalize beginBeat s l = u at hframe
  rw [hframe]
  exact ⟨fun _ => rfl, fun _ _ => rfl, rfl, rfl⟩

/-- A change of the credit and the missed slots of a lane that does not wait. -/
theorem slotDecided_updLane {s : State} {l : LaneId} (hstate : (s.lane l).state ≠ .waiting) {credit : Lane → Nat}
    {missed : Lane → Half} :
    SlotDecided s (s.updLane l fun x => { x with credit := credit x, missed := missed x }) := by
  refine ⟨fun k => ?_, fun k hk => State.lane_updLane_other s _ fun e => hstate (e ▸ hk), rfl, rfl⟩
  rw [State.lane_updLane]
  split
  · next e => rw [e]
  · rfl

theorem slotDecided_gainCredit (s : State) (l : LaneId) : SlotDecided s (gainCredit s l) := by
  unfold gainCredit
  split
  · next h => exact slotDecided_updLane (by simp [h])
  · exact .refl s

theorem slotDecided_spareAssignment (s : State) : SlotDecided s (spareAssignment s) := by
  unfold spareAssignment
  split
  · next l h =>
    have hactive := (State.ready_iff.mp (creditChoice_ready h)).1
    exact (slotDecided_updLane (missed := Lane.missed) (by simp [hactive])).trans (slotDecided_beginBeat _ l)
  · split
    · next l _ =>
      have hturn : SlotDecided s { s with wheel := { s.wheel with rotation := l } } :=
        ⟨fun _ => rfl, fun _ _ => rfl, rfl, rfl⟩
      exact hturn.trans (slotDecided_beginBeat _ l)
    · exact .refl s

theorem slotDecided_decideSlot (s : State) : SlotDecided s (decideSlot s) := by
  unfold decideSlot
  split
  · exact ⟨fun _ => rfl, fun _ _ => rfl, rfl, rfl⟩
  · split
    · split
      · exact slotDecided_beginBeat s _
      · exact (slotDecided_gainCredit s _).trans (slotDecided_spareAssignment _)
    · exact slotDecided_spareAssignment s

@[simp] theorem beginBeat_ints (s : State) (l : LaneId) : (beginBeat s l).ints = s.ints := by rw [beginBeat_frame]

@[simp] theorem gainCredit_ints (s : State) (l : LaneId) : (gainCredit s l).ints = s.ints := by
  unfold gainCredit
  split <;> rfl

@[simp] theorem spareAssignment_ints (s : State) : (spareAssignment s).ints = s.ints := by
  unfold spareAssignment
  split
  · simp
  · split <;> simp

/-- The decision of a slot sets INT OVERRUN at an overrun, and no other bit (R52). -/
theorem decideSlot_ints (s : State) :
    (decideSlot s).ints = s.ints.setting (if s.beat.isSome then 0x10 else 0) := by
  unfold decideSlot
  split
  · rfl
  · split
    · split <;> simp
    · simp

/-- The decision of a slot leaves what a lane counts (R126). -/
theorem SlotDecided.countedWait {s u : State} (h : SlotDecided s u) (l : LaneId) :
    countedWait (u.lane l) = countedWait (s.lane l) := by rw [h.lanes l]; rfl

/-! ### The advance of the wheel -/

/-- The wheel comes to its end at this tick and takes up another table (R57). -/
def Wheel.swaps (w : Wheel) : Bool := (w.nextEntry.endFlag || w.position == 31) && w.swapPending

/-- The advance past the entry at the position (R57). -/
theorem advanceWheel_eq (s : State) : advanceWheel s s.wheel.nextEntry.endFlag =
    { s with wheel := s.wheel.advanced, ints := s.ints.setting (if s.wheel.swaps then 0x20 else 0) } := by
  unfold advanceWheel Wheel.advanced Wheel.swaps
  cases hwrap : (s.wheel.nextEntry.endFlag || s.wheel.position == 31) with
  | false => simp
  | true =>
    cases hswap : s.wheel.swapPending with
    | false =>
      have hnot : (s.wheel.select != s.wheel.active) = false := hswap
      simp [hnot, Wheel.swapPending]
    | true =>
      have hset : (s.wheel.select != s.wheel.active) = true := hswap
      simp only [hset, Wheel.swapPending, if_true, Bool.and_self]
      rfl

/-- The state in which a slot tick counts the timeouts: the slot is decided and the wheel has advanced (R58). -/
def State.tickAdvanced (s : State) : State := advanceWheel (decideSlot s) s.wheel.nextEntry.endFlag

theorem tickAdvanced_eq (s : State) : s.tickAdvanced = { decideSlot s with
    wheel := (decideSlot s).wheel.advanced
    ints := (decideSlot s).ints.setting (if s.wheel.swaps then 0x20 else 0) } := by
  have hwheel := (slotDecided_decideSlot s).wheel
  have hend : (decideSlot s).wheel.nextEntry = s.wheel.nextEntry := by rw [hwheel]; rfl
  have hswaps : (decideSlot s).wheel.swaps = s.wheel.swaps := by rw [hwheel]; rfl
  rw [State.tickAdvanced, ← hend, advanceWheel_eq, hswaps]

/-- A slot tick comes only while the wheel is RUNNING (R51; log 2). -/
theorem slotTick_running {s : State} (h : s.wheel.running = true) : slotTick s = countTimeouts s.tickAdvanced := if_pos h

theorem slotTick_stopped {s : State} (h : s.wheel.running = false) : slotTick s = s := if_neg (by simp [h])

theorem exec_slotTick {s : State} (h : s.resetPin = false) : exec .slotTick s = .next (slotTick s) :=
  congrArg Host.Outcome.next (unlessReset_run h slotTick)

end Sys2Proof.Machine
end

section
/-! SUPPORT. The count of the timeouts: what the count of one lane makes of that lane, the completion queue and INT_STATUS, and
what a run of counts leaves (R126, R127, R133). -/

namespace Sys2Proof.Machine

/-! ### The completion of a WAIT on any lane -/

@[simp] theorem release_ints (s : State) (l : LaneId) (r : Role) : (release s l r).ints = s.ints := by
  unfold release
  dsimp only
  split <;> rfl

@[simp] theorem releaseAll_ints (s : State) (l : LaneId) : (releaseAll s l).ints = s.ints := by
  simp [releaseAll, allRoles]

theorem enterFaulted_ints (s : State) (l : LaneId) (f : FaultRecord) :
    (enterFaulted s l f).ints = s.ints.setting 0x02 :=
  congrArg (Interrupts.setting · 0x02) (releaseAll_ints s l)

theorem completeWait_last {s : State} {l : LaneId} (h : (s.lane l).progress.pointer = 0x7FFC) :
    ∃ t, Leaves l ({ s.lane l with wait := none } : Lane).stranded 0 s t ∧
      completeWait s l = enterFaulted t l ⟨.range, 0x7FFC, 0x7FFC, .walk, 0⟩ := by
  have hended := leaves_updLane (s := s) (l := l) rfl fun x => { x with wait := none }
  refine ⟨_, hended.quiet (leaves_stranded hended.lane), ?_⟩
  unfold completeWait
  dsimp only
  rw [completeAdvance_last (by rw [hended.lane]; exact h)]
  rfl

/-- A WAIT that completes with an advance, whatever the lane's cursors (R16, R125). -/
theorem leaves_completeWait_next {s : State} {l : LaneId} (h : (s.lane l).progress.pointer ≠ 0x7FFC) :
    Leaves l (s.lane l).afterWait (if (s.lane l).config.step then 0x04 else 0) s (completeWait s l) := by
  have hended := leaves_updLane (s := s) (l := l) rfl fun x => { x with wait := none }
  have hstep : ((s.updLane l fun x => { x with wait := none }).lane l).config.step = (s.lane l).config.step := by
    rw [hended.lane]
  unfold completeWait Lane.afterWait
  dsimp only
  rw [hstep, completeAdvance_next (by rw [hended.lane]; exact h), hended.lane,
    Lane.completed_next (x := { s.lane l with wait := none }) h]
  exact (hended.quiet (leaves_takeLink hended.lane _)).jump _

theorem completeWait_ints (s : State) (l : LaneId) : (completeWait s l).ints =
    s.ints.setting (completionInts (s.lane l).progress.pointer (s.lane l).config.step) := by
  by_cases e : (s.lane l).progress.pointer = 0x7FFC
  · obtain ⟨t, ht, hwait⟩ := completeWait_last e
    rw [hwait, enterFaulted_ints, ht.ints, completionInts_last e]
    simp
  · rw [(leaves_completeWait_next e).ints, completionInts_next e]

/-- A lane whose WAIT has completed waits no longer (R125). -/
theorem completeWait_wait (s : State) (l : LaneId) : ((completeWait s l).lane l).wait = none := by
  by_cases e : (s.lane l).progress.pointer = 0x7FFC
  · obtain ⟨t, -, hwait⟩ := completeWait_last e
    rw [hwait]
    exact congrArg Lane.wait (enterFaulted_core t l _)
  · rw [(leaves_completeWait_next e).lane, Lane.afterWait, Lane.completed_next (x := { s.lane l with wait := none }) e,
      Lane.jumped_eq]
    split
    · rfl
    · unfold Lane.enterActive
      split <;> rfl

/-! ### The count of one lane -/

/-- The tag of a lane's wait. -/
def Lane.waitTag (x : Lane) : Half := (x.wait.map Wait.tag).getD 0

/-- A lane's wait posts on its timeout. -/
def Lane.postsOnTimeout (x : Lane) : Bool := x.wait.any Wait.postOnTimeout

/-- A lane takes a count that is not its last (R126). -/
def Lane.countedDown (x : Lane) : Lane :=
  match countedWait x with
  | some w => { x with wait := some { w with timeoutLeft := w.timeoutLeft - 1 } }
  | none => x

/-- A lane whose timeout is taken while the queue is full (R127, R133). -/
def Lane.timeoutHeld (x : Lane) : Lane :=
  { x with
    wait := none, pendingPost := some ⟨.timeout, x.waitTag⟩, phase := .finish, state := .blocked
    reasons := ⟨false, false, true⟩ }

/-- The timeout of a lane that is taken next posts an entry. -/
def State.postsTimeout (s : State) (l : LaneId) : Bool := s.timesOut l && (s.lane l).postsOnTimeout

/-- The next count completes the WAIT of a lane: its timeout is taken, and it posts nothing or the queue has room (R127). -/
def State.endsWait (s : State) (l : LaneId) : Bool :=
  s.timesOut l && (!(s.lane l).postsOnTimeout || decide (s.queue.entries.length < 32))

theorem countedWait_of_timesOut {s : State} {l : LaneId} (h : s.timesOut l = true) :
    ∃ w, countedWait (s.lane l) = some w ∧ (s.lane l).wait = some w ∧ w.timeoutLeft = 1 := by
  unfold State.timesOut at h
  split at h
  · next w hstate hwait =>
    have hleft : w.timeoutLeft = 1 := by simpa using h
    exact ⟨w, by simp [countedWait, hstate, hwait, hleft], hwait, hleft⟩
  · contradiction

theorem timesOut_of_countedWait {s : State} {l : LaneId} {w : Wait} (h : countedWait (s.lane l) = some w) :
    s.timesOut l = (w.timeoutLeft == 1) := by
  obtain ⟨hstate, hwait, -⟩ := countedWait_some h
  simp [State.timesOut, hstate, hwait]

theorem timesOut_of_uncounted {s : State} {l : LaneId} (h : countedWait (s.lane l) = none) : s.timesOut l = false := by
  by_contra hout
  obtain ⟨w, hw, -⟩ := countedWait_of_timesOut (by simpa using hout)
  simp [h] at hw

/-- The count of a lane whose timeout is not its last: the wait goes on (R126). -/
theorem countTimeout_goes_on {s : State} {l : LaneId} (h : s.timesOut l = false) :
    countTimeout s l = s.setLane l (s.lane l).countedDown := by
  unfold countTimeout Lane.countedDown
  cases hw : countedWait (s.lane l) with
  | none => exact (State.setLane_self s l).symm
  | some w =>
    rw [timesOut_of_countedWait hw] at h
    exact if_neg (by simpa using h)

/-- The timeout of a wait that posts nothing completes the WAIT (R127). -/
theorem countTimeout_quiet {s : State} {l : LaneId} (h : s.timesOut l = true) (hpost : (s.lane l).postsOnTimeout = false) :
    countTimeout s l = completeWait s l := by
  obtain ⟨w, hw, hwait, hleft⟩ := countedWait_of_timesOut h
  have hnot : w.postOnTimeout = false := by simpa [Lane.postsOnTimeout, hwait] using hpost
  simp [countTimeout, hw, hleft, takeTimeout, hnot]

/-- The timeout of a wait whose entry finds room posts it and completes the WAIT (R127). -/
theorem countTimeout_posted {s : State} {l : LaneId} (h : s.timesOut l = true) (hpost : (s.lane l).postsOnTimeout = true)
    (hroom : s.queue.entries.length < 32) :
    countTimeout s l = completeWait (s.pushed l .timeout (s.lane l).waitTag) l := by
  obtain ⟨w, hw, hwait, hleft⟩ := countedWait_of_timesOut h
  have hdoes : w.postOnTimeout = true := by simpa [Lane.postsOnTimeout, hwait] using hpost
  simp [countTimeout, hw, hleft, takeTimeout, hdoes, push_eq hroom, Lane.waitTag, hwait]

/-- The timeout of a wait whose entry meets a full queue leaves the lane with a pending post (R127, R133). -/
theorem countTimeout_held {s : State} {l : LaneId} (h : s.timesOut l = true) (hpost : (s.lane l).postsOnTimeout = true)
    (hfull : 32 ≤ s.queue.entries.length) : countTimeout s l = s.setLane l (s.lane l).timeoutHeld := by
  obtain ⟨w, hw, hwait, hleft⟩ := countedWait_of_timesOut h
  have hdoes : w.postOnTimeout = true := by simpa [Lane.postsOnTimeout, hwait] using hpost
  simp only [countTimeout, hw, hleft, takeTimeout, hdoes, push_full hfull, if_true]
  rw [settle_eq, State.lane_updLane_same]
  simp [State.updLane, Lane.timeoutHeld, Lane.waitTag, hwait, Lane.neededMapped, Phase.needs]

/-- The count of one lane makes the entry it posts, if any, and works on its lane alone. -/
theorem onlyLane_countTimeout (s : State) (l : LaneId) :
    OnlyLane l (if s.postsTimeout l && decide (s.queue.entries.length < 32) then
      s.pushed l .timeout (s.lane l).waitTag else s) (countTimeout s l) := by
  unfold State.postsTimeout
  cases hout : s.timesOut l with
  | false =>
    rw [countTimeout_goes_on hout]
    exact onlyLane_updLane l s _
  | true =>
    cases hpost : (s.lane l).postsOnTimeout with
    | false =>
      rw [countTimeout_quiet hout hpost]
      exact onlyLane_completeWait s l
    | true =>
      by_cases hroom : s.queue.entries.length < 32
      · rw [countTimeout_posted hout hpost hroom]
        simpa [hroom] using onlyLane_completeWait (s.pushed l .timeout (s.lane l).waitTag) l
      · rw [countTimeout_held hout hpost (by omega)]
        simpa [hroom, State.updLane] using onlyLane_updLane l s fun _ => (s.lane l).timeoutHeld

/-- The queue after the count of one lane: with its entry, if it posts one and the queue has room (R127, R132). -/
theorem countTimeout_queue (s : State) (l : LaneId) : (countTimeout s l).queue =
    if s.postsTimeout l && decide (s.queue.entries.length < 32) then
      s.queueWith (s.entryFor l .timeout (s.lane l).waitTag (s.lane l).progress.pointer)
    else s.queue := by
  rw [(onlyLane_countTimeout s l).queue]
  split <;> rfl

/-- The bits that the count of one lane sets: those of its entry and of its completion (R36, R41, R132). -/
theorem countTimeout_ints (s : State) (l : LaneId) : (countTimeout s l).ints = s.ints.setting
    ((if s.postsTimeout l && decide (s.queue.entries.length < 32) then s.pushInts else 0) |||
      (if s.endsWait l then completionInts (s.lane l).progress.pointer (s.lane l).config.step else 0)) := by
  unfold State.postsTimeout State.endsWait
  cases hout : s.timesOut l with
  | false =>
    rw [countTimeout_goes_on hout]
    simp
  | true =>
    cases hpost : (s.lane l).postsOnTimeout with
    | false =>
      rw [countTimeout_quiet hout hpost, completeWait_ints]
      simp
    | true =>
      by_cases hroom : s.queue.entries.length < 32
      · rw [countTimeout_posted hout hpost hroom, completeWait_ints]
        simp only [State.pushed, Interrupts.setting_setting, hroom]
        rfl
      · rw [countTimeout_held hout hpost (by omega)]
        simp [hroom]

/-- What the count of one lane makes of it, by whether its timeout is taken and whether its WAIT then completes. -/
structure LaneCounted (x : Lane) (out ends : Bool) (y : Lane) : Prop where
  goesOn : out = false → y = x.countedDown
  ended : ends = true → x.tidy → y = x.afterWait
  held : out = true → ends = false → y = x.timeoutHeld
  done : out = true → y.wait = none

theorem laneCounted_countTimeout (s : State) (l : LaneId) :
    LaneCounted (s.lane l) (s.timesOut l) (s.endsWait l) ((countTimeout s l).lane l) := by
  unfold State.endsWait
  cases hout : s.timesOut l with
  | false =>
    rw [countTimeout_goes_on hout, State.lane_setLane_same]
    exact ⟨fun _ => rfl, by simp, by simp, by simp⟩
  | true =>
    cases hpost : (s.lane l).postsOnTimeout with
    | false =>
      rw [countTimeout_quiet hout hpost]
      exact ⟨by simp, fun _ h => (leaves_completeWait h).lane, by simp, fun _ => completeWait_wait s l⟩
    | true =>
      by_cases hroom : s.queue.entries.length < 32
      · rw [countTimeout_posted hout hpost hroom]
        exact ⟨by simp, fun _ h => (leaves_completeWait (s := s.pushed l .timeout (s.lane l).waitTag) h).lane,
          by simp [hroom], fun _ => completeWait_wait _ l⟩
      · rw [countTimeout_held hout hpost (by omega), State.lane_setLane_same]
        exact ⟨by simp, by simp [hroom], fun _ _ => rfl, fun _ => rfl⟩

end Sys2Proof.Machine
end

section
/-! SUPPORT. The count of every lane's timeout in turn: the entries it posts, the bits it sets, and what it makes of each lane
(R58, R126, R127, R132). -/

namespace Sys2Proof.Machine

/-- What counts of timeouts on some lanes leave as it is. -/
structure CountsOnly (p : LaneId → Prop) (s t : State) : Prop where
  others : ∀ k, ¬ p k → t.lane k = s.lane k
  beat : t.beat = s.beat
  wheel : t.wheel = s.wheel
  entries : t.map.entries = s.map.entries
  signals : t.signals = s.signals
  enable : t.ints.enable = s.ints.enable
  ports : t.ports = s.ports
  mem : t.mem = s.mem
  window : t.window = { s.window with recordIndex := t.window.recordIndex }
  clearing : t.clearing = s.clearing
  resetPin : t.resetPin = s.resetPin
  pending : t.pending = s.pending

theorem CountsOnly.refl (p : LaneId → Prop) (s : State) : CountsOnly p s s :=
  ⟨fun _ _ => rfl, rfl, rfl, rfl, rfl, rfl, rfl, rfl, rfl, rfl, rfl, rfl⟩

theorem CountsOnly.trans {p q : LaneId → Prop} {s t u : State} (h : CountsOnly p s t) (g : CountsOnly q t u) :
    CountsOnly (fun k => p k ∨ q k) s u where
  others k hk := (g.others k fun e => hk (.inr e)).trans (h.others k fun e => hk (.inl e))
  beat := g.beat.trans h.beat
  wheel := g.wheel.trans h.wheel
  entries := g.entries.trans h.entries
  signals := g.signals.trans h.signals
  enable := g.enable.trans h.enable
  ports := g.ports.trans h.ports
  mem := g.mem.trans h.mem
  window := by rw [g.window, h.window]
  clearing := g.clearing.trans h.clearing
  resetPin := g.resetPin.trans h.resetPin
  pending := g.pending.trans h.pending

theorem countsOnly_countTimeout (s : State) (l : LaneId) : CountsOnly (· = l) s (countTimeout s l) := by
  have honly := onlyLane_countTimeout s l
  split at honly <;>
    exact ⟨honly.others, honly.beat, honly.wheel, honly.entries, honly.signals, honly.enable, honly.ports, honly.mem,
      honly.window, honly.clearing, honly.resetPin, honly.pending⟩

/-! ### The entries posted -/

/-- The lanes of a list whose TIMEOUT entries find room: the first of those that post, as many as are vacant (R127). -/
def State.postedAmong (s : State) (ls : List LaneId) : List LaneId :=
  (ls.filter s.postsTimeout).take (32 - s.queue.entries.length)

/-- The TIMEOUT entry of a lane with its place among those posted (R127, R132). -/
def State.timeoutEntry (s : State) (l : LaneId) (k : Nat) : Entry :=
  ⟨s.queue.nextSequence + BitVec.ofNat 8 k, l, .timeout, (s.lane l).waitTag, (s.lane l).progress.pointer,
    s.wheel.slotCount.setWidth 16⟩

/-- The TIMEOUT entries that the counts of a list's lanes push. -/
def State.entriesAmong (s : State) (ls : List LaneId) : List Entry :=
  (s.postedAmong ls).zipIdx.map fun (l, k) => s.timeoutEntry l k

/-- The counts of a list's lanes complete the WAIT of a lane (R127). -/
def State.endsAmong (s : State) (ls : List LaneId) (l : LaneId) : Bool :=
  s.timesOut l && (!(s.lane l).postsOnTimeout || (s.postedAmong ls).contains l)

theorem length_entriesAmong (s : State) (ls : List LaneId) : (s.entriesAmong ls).length = (s.postedAmong ls).length := by
  simp [State.entriesAmong]

theorem isEmpty_entriesAmong (s : State) (ls : List LaneId) : (s.entriesAmong ls).isEmpty = (s.postedAmong ls).isEmpty := by
  rw [State.entriesAmong, List.isEmpty_map, Bool.eq_iff_iff, List.isEmpty_iff, List.isEmpty_iff, List.zipIdx_eq_nil_iff]

theorem mem_of_mem_postedAmong {s : State} {ls : List LaneId} {l : LaneId} (h : l ∈ s.postedAmong ls) : l ∈ ls :=
  (List.mem_filter.mp (List.mem_of_mem_take h)).1

/-- The last lane of a list posts if it asks for it and the entries before it leave room. -/
theorem postedAmong_snoc (s : State) (ls : List LaneId) (l : LaneId) : s.postedAmong (ls ++ [l]) = s.postedAmong ls ++
    if s.postsTimeout l && decide (s.queue.entries.length + (s.postedAmong ls).length < 32) then [l] else [] := by
  simp only [State.postedAmong, List.filter_append, List.take_append, List.length_take]
  congr 1
  generalize (ls.filter s.postsTimeout).length = n
  cases hpost : s.postsTimeout l with
  | false => simp [hpost]
  | true =>
    by_cases hroom : n < 32 - s.queue.entries.length
    · obtain ⟨m, hm⟩ : ∃ m, 32 - s.queue.entries.length - n = m + 1 := ⟨_, (Nat.succ_pred (by omega)).symm⟩
      have hfits : s.queue.entries.length + min (32 - s.queue.entries.length) n < 32 := by omega
      simp [hpost, hm, hfits]
    · have hm : 32 - s.queue.entries.length - n = 0 := by omega
      have hfull : ¬ s.queue.entries.length + min (32 - s.queue.entries.length) n < 32 := by omega
      simp [hm, hfull]

/-- A lane's WAIT ends among the counts up to its own or it does not; later counts change nothing of that. -/
theorem endsAmong_snoc_other (s : State) (ls : List LaneId) {k l : LaneId} (h : k ≠ l) :
    s.endsAmong (ls ++ [l]) k = s.endsAmong ls k := by
  unfold State.endsAmong
  rw [postedAmong_snoc]
  split <;> simp [h]

theorem endsAmong_snoc_self (s : State) {ls : List LaneId} {l : LaneId} (h : l ∉ ls) :
    s.endsAmong (ls ++ [l]) l = (s.timesOut l &&
      (!(s.lane l).postsOnTimeout || decide (s.queue.entries.length + (s.postedAmong ls).length < 32))) := by
  have hnot : l ∉ s.postedAmong ls := fun hmem => h (mem_of_mem_postedAmong hmem)
  unfold State.endsAmong
  rw [postedAmong_snoc]
  unfold State.postsTimeout
  cases s.timesOut l <;> cases (s.lane l).postsOnTimeout <;> simp [hnot]

/-! ### The counts of a list of lanes -/

/-- What the counts of a list's lanes have made of a state. -/
structure CountedThrough (ls : List LaneId) (s t : State) : Prop extends CountsOnly (· ∈ ls) s t where
  queue : t.queue = { s.queue with
    entries := s.queue.entries ++ s.entriesAmong ls
    nextSequence := s.queue.nextSequence + BitVec.ofNat 8 (s.postedAmong ls).length }
  lane : ∀ l ∈ ls, LaneCounted (s.lane l) (s.timesOut l) (s.endsAmong ls l) (t.lane l)
  queueBit : t.ints.status.getLsbD 0 = (s.ints.status.getLsbD 0 || (!(s.postedAmong ls).isEmpty &&
    decide (s.queue.thresholdField.toNat + 1 ≤ s.queue.entries.length + (s.postedAmong ls).length)))
  laneBits : ∀ n, n ≠ 0 → t.ints.status.getLsbD n = (s.ints.status.getLsbD n || ls.any fun l =>
    s.endsAmong ls l && (completionInts (s.lane l).progress.pointer (s.lane l).config.step).getLsbD n)

theorem countedThrough_nil (s : State) : CountedThrough [] s s where
  toCountsOnly := .refl _ s
  queue := by simp [State.entriesAmong, State.postedAmong]
  lane := by simp
  queueBit := by simp [State.postedAmong]
  laneBits := by simp

/-- Whether a lane's timeout is taken next is read from the lane alone. -/
theorem timesOut_congr {s t : State} {l : LaneId} (h : t.lane l = s.lane l) : t.timesOut l = s.timesOut l := by
  simp only [State.timesOut, h]

theorem completionInts_zero (p : LAddr) (step : Bool) : (completionInts p step).getLsbD 0 = false := by
  unfold completionInts
  split
  · rfl
  · cases step <;> rfl

theorem any_congr_of_mem {α : Type} {p q : α → Bool} {as : List α} (h : ∀ a ∈ as, p a = q a) : as.any p = as.any q := by
  rw [Bool.eq_iff_iff, List.any_eq_true, List.any_eq_true]
  exact exists_congr fun a => and_congr_right fun ha => by rw [h a ha]

/-- The count of one lane more: the lane stands as it stood before them all, and the entries posted before it take up room. -/
theorem CountedThrough.snoc {ls : List LaneId} {s t : State} (h : CountedThrough ls s t) {l : LaneId} (hl : l ∉ ls) :
    CountedThrough (ls ++ [l]) s (countTimeout t l) := by
  have hlane : t.lane l = s.lane l := h.others l hl
  have hout : t.timesOut l = s.timesOut l := timesOut_congr hlane
  have hposts : t.postsTimeout l = s.postsTimeout l := by rw [State.postsTimeout, hout, hlane]; rfl
  have hlength : t.queue.entries.length = s.queue.entries.length + (s.postedAmong ls).length := by
    rw [h.queue]
    simp [length_entriesAmong]
  have hends : t.endsWait l = s.endsAmong (ls ++ [l]) l := by
    rw [endsAmong_snoc_self s hl, State.endsWait, hout, hlane, hlength]
  have honly := countsOnly_countTimeout t l
  constructor
  case toCountsOnly =>
    have hboth := h.toCountsOnly.trans honly
    exact { hboth with others := fun k hk => hboth.others k (by simpa using hk) }
  case queue =>
    rw [countTimeout_queue, hposts, hlength, hlane, State.entriesAmong, postedAmong_snoc]
    split
    · simp [State.queueWith, State.entryFor, h.queue, List.zipIdx_append, State.entriesAmong, State.timeoutEntry, h.wheel,
        BitVec.add_assoc, BitVec.ofNat_add]
    · simp [h.queue, State.entriesAmong]
  case lane =>
    intro k hk
    by_cases e : k = l
    · subst e
      have hcounted := laneCounted_countTimeout t k
      rwa [hlane, hout, hends] at hcounted
    · have hmem : k ∈ ls := by simpa [e] using hk
      rw [honly.others k e, endsAmong_snoc_other s ls e]
      exact h.lane k hmem
  case queueBit =>
    rw [countTimeout_ints, Interrupts.getLsbD_setting, BitVec.getLsbD_or, getLsbD_ite_zero, getLsbD_ite_zero,
      completionInts_zero, hposts, hlength, h.queueBit, postedAmong_snoc, State.pushInts, getLsbD_ite_zero,
      State.pushSetsQueue, hlength, h.queue]
    split
    · next hcond =>
      rw [hcond]
      by_cases hfew : s.queue.thresholdField.toNat ≤ s.queue.entries.length + (s.postedAmong ls).length
      · simp [hfew, ← Nat.add_assoc]
      · have hless : ¬ s.queue.thresholdField.toNat < s.queue.entries.length + (s.postedAmong ls).length := by omega
        simp [hfew, hless, ← Nat.add_assoc]
    · next hcond => simp [hcond]
  case laneBits =>
    intro n hn
    rw [countTimeout_ints, Interrupts.getLsbD_setting, BitVec.getLsbD_or, getLsbD_ite_zero, getLsbD_ite_zero,
      h.laneBits n hn, hends, hlane, State.pushInts, getLsbD_ite_zero, List.any_append]
    have hearlier : (ls.any fun k =>
        s.endsAmong (ls ++ [l]) k && (completionInts (s.lane k).progress.pointer (s.lane k).config.step).getLsbD n) =
        ls.any fun k =>
          s.endsAmong ls k && (completionInts (s.lane k).progress.pointer (s.lane k).config.step).getLsbD n :=
      any_congr_of_mem fun k hk => by
        have hne : k ≠ l := fun e => hl (e ▸ hk)
        rw [endsAmong_snoc_other s ls hne]
    have hqueueBit : (0x01 : BitVec 8).getLsbD n = false := by simpa using hn
    rw [hearlier, hqueueBit]
    simp [Bool.or_assoc]

theorem countedThrough_foldl (s : State) (ls : List LaneId) (h : ls.Nodup) :
    CountedThrough ls s (ls.foldl countTimeout s) := by
  induction ls using List.reverseRecOn with
  | nil => exact countedThrough_nil s
  | append_singleton ls l ih =>
    rw [List.foldl_append]
    obtain ⟨hls, -, hnot⟩ := List.nodup_append.mp h
    exact (ih hls).snoc fun hmem => hnot l hmem l (by simp) rfl

/-- The slot tick's counts: every lane once, in ascending number (R58). -/
theorem countedThrough_countTimeouts (s : State) : CountedThrough allLanes s (countTimeouts s) :=
  countedThrough_foldl s allLanes (by decide)

end Sys2Proof.Machine
end

section
/-! CERTIFICATE. Every step keeps the wheel sound: the timer counts exactly while the wheel is RUNNING, and a clear pass meets
neither a RUNNING wheel nor a beat (R51, R92, R170, R171); O60. -/

namespace Sys2Proof.Machine

/-! ### Operations that leave the wheel -/

theorem wheelSound_congr {s t : State} (hs : s.wheelSound) (hwheel : t.wheel = s.wheel) (hbeat : t.beat = s.beat)
    (hclearing : t.clearing = s.clearing) (hpin : t.resetPin = s.resetPin) : t.wheelSound := by
  unfold State.wheelSound at hs ⊢
  rwa [hwheel, hbeat, hclearing, hpin]

theorem OnlyLanes.wheelSound {p : LaneId → Prop} {s t : State} (h : OnlyLanes p s t) (hs : s.wheelSound) : t.wheelSound :=
  wheelSound_congr hs h.wheel h.beat h.clearing h.resetPin

theorem OnlyLane.wheelSound {l : LaneId} {s t : State} (h : OnlyLane l s t) (hs : s.wheelSound) : t.wheelSound :=
  wheelSound_congr hs h.wheel h.beat h.clearing h.resetPin

theorem wheelSound_foldl {α : Type} {f : State → α → State} (hf : ∀ s a, s.wheelSound → (f s a).wheelSound) (as : List α)
    {s : State} (hs : s.wheelSound) : (as.foldl f s).wheelSound :=
  List.foldlRecOn as f hs fun t ht a _ => hf t a ht

theorem wheelSound_setSignal {s : State} (hs : s.wheelSound) (n : SignalId) : (setSignal s n).wheelSound :=
  (onlyLanes_setSignal s n).wheelSound hs

theorem wheelSound_setSignals {s : State} (hs : s.wheelSound) (mask : Half) : (setSignals s mask).wheelSound := by
  unfold setSignals
  refine wheelSound_foldl (fun t n ht => ?_) allSignals hs
  split
  · exact wheelSound_setSignal ht n
  · exact ht

theorem wheelSound_releaseQueue {s : State} (hs : s.wheelSound) : (releaseQueue s).wheelSound := by
  unfold releaseQueue
  refine wheelSound_foldl (fun t l ht => ?_) allLanes hs
  split
  · exact (onlyLane_removeReason t l _).wheelSound ht
  · exact ht

theorem wheelSound_releaseLanes {s : State} (hs : s.wheelSound) (p : PortId) (dir : Direction) :
    (releaseLanes s p dir).wheelSound := by
  unfold releaseLanes
  refine wheelSound_foldl (fun t l ht => ?_) allLanes hs
  split
  · exact ((onlyLane_updLane l t _).trans (onlyLane_removeReason _ l _)).wheelSound ht
  · exact ht

theorem wheelSound_faultWaiters {s : State} (hs : s.wheelSound) (p : PortId) (dir : Direction) (role : Role) :
    (faultWaiters s p dir role).wheelSound := by
  unfold faultWaiters
  refine wheelSound_foldl (fun t l ht => ?_) allLanes hs
  split
  · exact (onlyLane_asyncFault t l _ role).wheelSound ht
  · exact ht

/-! ### Beats -/

/-- A change of the beat in progress, or its end, keeps the wheel sound. -/
theorem wheelSound_withBeat {s : State} (hs : s.wheelSound) {beat : Option Beat} (h : s.beat = none → beat = none) :
    ({ s with beat := beat } : State).wheelSound := by
  obtain ⟨hcounts, hperiod, hslot, hclear⟩ := hs
  exact ⟨hcounts, hperiod, hslot, fun hheld => ⟨(hclear hheld).1, h (hclear hheld).2⟩⟩

theorem wheelSound_recordLoad {s : State} (hs : s.wheelSound) (n : Nat) : (recordLoad s n).wheelSound := by
  rw [recordLoad_frame]
  exact wheelSound_withBeat hs fun hnone => by simp [recordLoad, hnone]

theorem wheelSound_cellRead {s : State} (hs : s.wheelSound) : (cellRead s).wheelSound := by
  rw [cellRead_frame]
  exact wheelSound_withBeat hs fun hnone => by simp [cellRead, hnone]

theorem wheelSound_wordStep {s : State} (hs : s.wheelSound) (part : WordStepPart) : (wordStep s part).wheelSound := by
  rw [wordStep_frame]
  refine wheelSound_withBeat hs fun hnone => ?_
  have hread : wordRead s = s := by simp [wordRead, hnone]
  have hwrite : wordWrite s = s := by simp [wordWrite, hnone]
  cases part <;> simp [wordStep, hread, hwrite, hnone]

theorem keptByResults_wheelSound (l : LaneId) : KeptByResults l State.wheelSound where
  updLane hs _ := hs
  retarget r page hs := (onlyLane_retarget _ l r page).wheelSound hs
  release r hs := (onlyLane_release _ l r).wheelSound hs
  dropCopy hs := (onlyLane_dropCopy _ l).wheelSound hs
  pushed _ _ hs := hs
  setSignal n hs := wheelSound_setSignal hs n
  clearSignal _ hs := hs

theorem wheelSound_beatEnd {s : State} (hs : s.wheelSound) : (beatEnd s).wheelSound := by
  cases hb : s.beat with
  | none => simpa [beatEnd, hb] using hs
  | some b =>
    cases hover : b.work.over with
    | false => simpa [beatEnd, hb, hover] using hs
    | true =>
      have htaken : (s.taken b).wheelSound :=
        (leaves_taken s b).wheelSound (s := { s with beat := none }) (wheelSound_withBeat hs fun _ => rfl)
      have hresults : (s.results b).1.wheelSound :=
        ((keptByResults_wheelSound b.lane).beatResult htaken b.work).state
      rw [beatEnd_over hb hover]
      exact (onlyLane_takeDeferred _ b.lane _ _ _).wheelSound hresults

/-! ### The slot tick and the timer -/

/-- A slot tick of a RUNNING wheel begins a slot of SLOT_PERIOD (R51); no clear pass is then in progress. -/
theorem wheelSound_slotTick {s : State} (hs : s.wheelSound) : (slotTick s).wheelSound := by
  cases hrun : s.wheel.running with
  | false =>
    rw [slotTick_stopped hrun]
    exact hs
  | true =>
    have hcount := countedThrough_countTimeouts s.tickAdvanced
    have hdecided := slotDecided_decideSlot s
    have hwheel : (countTimeouts s.tickAdvanced).wheel = (decideSlot s).wheel.advanced := by
      rw [hcount.wheel, tickAdvanced_eq]
    have hclearing : (countTimeouts s.tickAdvanced).clearing = s.clearing := by
      rw [hcount.clearing, tickAdvanced_eq, hdecided.rest]
    have hpin : (countTimeouts s.tickAdvanced).resetPin = s.resetPin := by
      rw [hcount.resetPin, tickAdvanced_eq, hdecided.rest]
    rw [slotTick_running hrun]
    generalize countTimeouts s.tickAdvanced = t at hwheel hclearing hpin
    rw [hdecided.wheel] at hwheel
    obtain ⟨-, hperiod, -, hclear⟩ := hs
    refine ⟨?_, ?_, fun timer htimer => ?_, fun hheld => ?_⟩
    · simp [hwheel, Wheel.advanced, hrun]
    · simpa [hwheel, Wheel.advanced] using hperiod
    · obtain rfl : (⟨s.wheel.period.toNat, 0⟩ : SlotTimer) = timer := by
        simpa [hwheel, Wheel.advanced] using htimer
      exact ⟨hperiod, Nat.lt_of_lt_of_le (Nat.zero_lt_succ 7) hperiod⟩
    · rw [hclearing, hpin] at hheld
      exact absurd (hclear hheld).1 (by simp [hrun])

theorem wheelSound_timebaseTick {s : State} (hs : s.wheelSound) : (timebaseTick s).wheelSound := by
  unfold timebaseTick
  split
  · next timer htimer =>
    split
    · exact wheelSound_slotTick hs
    · next hleft =>
      obtain ⟨hcounts, hperiod, hslot, hclear⟩ := hs
      refine ⟨?_, hperiod, fun u hu => ?_, hclear⟩
      · simpa [htimer] using hcounts
      · obtain rfl := Option.some.inj hu
        exact ⟨(hslot timer htimer).1, by simpa using hleft⟩
  · exact hs

theorem wheelSound_waitTimeout {s : State} (hs : s.wheelSound) (l : LaneId) : (waitTimeout s l).wheelSound := by
  rcases waitTimeout_cases s l with e | e <;> rw [e]
  · exact wheelSound_slotTick hs
  · exact hs

/-! ### Global commands, the clear pass and the RESET pin -/

theorem wheelSound_startWheel {s : State} (hs : s.wheelSound) (hpin : s.resetPin = false) :
    (startWheel s).1.wheelSound := by
  unfold startWheel
  split
  · exact hs
  · next hclear =>
    split
    · exact hs
    · obtain ⟨-, hperiod, -, -⟩ := hs
      refine ⟨by simp, hperiod, fun timer htimer => ?_, fun hheld => ?_⟩
      · obtain rfl := Option.some.inj htimer
        exact ⟨hperiod, Nat.lt_of_lt_of_le (Nat.zero_lt_succ 7) hperiod⟩
      · rcases hheld with h | h
        · exact absurd h hclear
        · exact absurd h (by simp [hpin])

theorem wheelSound_stopWheel {s : State} (hs : s.wheelSound) : (stopWheel s).1.wheelSound := by
  unfold stopWheel
  split
  · obtain ⟨-, hperiod, -, hclear⟩ := hs
    exact ⟨by simp, hperiod, by simp, fun hheld => ⟨rfl, (hclear hheld).2⟩⟩
  · exact hs

theorem wheelSound_rewindWheel {s : State} (hs : s.wheelSound) : (rewindWheel s).1.wheelSound := by
  unfold rewindWheel
  split <;> exact hs

/-- A clear pass begins only with the wheel STOPPED and no beat in progress (R169). -/
theorem wheelSound_eraseMemory {s : State} (hs : s.wheelSound) : (eraseMemory s).1.wheelSound := by
  unfold eraseMemory
  split
  · exact hs
  · split
    · exact hs
    · next hidle =>
      obtain ⟨hcounts, hperiod, hslot, -⟩ := hs
      exact ⟨hcounts, hperiod, hslot, fun _ => by simpa using hidle⟩

/-- A wheel STOPPED with no beat in progress is sound, whatever the clear pass and the RESET pin (R51). -/
theorem wheelSound_stopped {s : State} (hrun : s.wheel.running = false) (htimer : s.wheel.timer = none)
    (hperiod : 8 ≤ s.wheel.period.toNat) (hbeat : s.beat = none) : s.wheelSound :=
  ⟨by simp [hrun, htimer], hperiod, by simp [htimer], fun _ => ⟨hrun, hbeat⟩⟩

theorem wheelSound_globalCommandOf {s : State} (hs : s.wheelSound) (hpin : s.resetPin = false) (code : BitVec 4) :
    (globalCommandOf code s).1.wheelSound := by
  rcases globalCommandOf_cases code with h | h | h | h | h | h <;> rw [h]
  · exact wheelSound_startWheel hs hpin
  · exact wheelSound_stopWheel hs
  · exact wheelSound_rewindWheel hs
  · obtain ⟨-, hperiod, -, -⟩ := hs
    exact wheelSound_stopped rfl rfl hperiod rfl
  · exact wheelSound_eraseMemory hs
  · exact hs

theorem wheelSound_clearPassEnd {s : State} (hs : s.wheelSound) : (clearPassEnd s).wheelSound := by
  unfold clearPassEnd
  split
  · next hclearing =>
    obtain ⟨hcounts, hperiod, hslot, hclear⟩ := hs
    exact ⟨hcounts, hperiod, hslot, fun _ => hclear (.inl hclearing)⟩
  · exact hs

theorem wheelSound_resetRelease {s : State} (hs : s.wheelSound) : (resetRelease s).wheelSound := by
  unfold resetRelease
  split
  · next hpin =>
    obtain ⟨hcounts, hperiod, hslot, hclear⟩ := hs
    exact ⟨hcounts, hperiod, hslot, fun _ => hclear (.inr hpin)⟩
  · exact hs

/-! ### Writes of the wheel's items -/

theorem wheelSound_writeScheduleEntry {s : State} (hs : s.wheelSound) (t : Table) (e : Fin 32) (v : Half) :
    (writeScheduleEntry s t e v).wheelSound := by
  unfold writeScheduleEntry
  dsimp only
  split
  · exact hs
  · split
    · exact hs
    · cases t <;> exact hs

theorem wheelSound_writeSlotPeriod {s : State} (hs : s.wheelSound) (v : Half) : (writeSlotPeriod s v).wheelSound := by
  unfold writeSlotPeriod
  split
  · exact hs
  · next hlong =>
    obtain ⟨hcounts, -, hslot, hclear⟩ := hs
    exact ⟨hcounts, Nat.le_of_not_lt hlong, hslot, hclear⟩

/-! ### Lane commands -/

theorem onlyLane_enableLane (s : State) (l : LaneId) : OnlyLane l s (enableLane s l).1 := by
  unfold enableLane
  split
  · exact onlyLane_updLane l s fun x => { x with state := .idle }
  · exact .refl l s

theorem onlyLane_disableLane (s : State) (l : LaneId) : OnlyLane l s (disableLane s l).1 := by
  unfold disableLane
  split
  case h_4 => exact .refl l s
  all_goals exact onlyLane_clearLane s l _ _

theorem onlyLane_startLane (s : State) (l : LaneId) : OnlyLane l s (startLane s l).1 := by
  unfold startLane
  split
  · dsimp only
    split
    · exact .refl l s
    · split
      · exact .refl l s
      · dsimp only
        exact ((onlyLane_updLane l s _).trans (onlyLane_retarget _ l .walk _)).trans (onlyLane_updLane l _ _)
  · exact .refl l s

theorem onlyLane_haltLane (s : State) (l : LaneId) : OnlyLane l s (haltLane s l).1 := by
  unfold haltLane
  split
  · exact .refl l s
  · split
    · split
      · exact onlyLane_updLane l s fun x => { x with deferred := some .halt }
      · exact onlyLane_haltNow s l
    · exact onlyLane_haltNow s l
    · exact onlyLane_haltNow s l
    · exact .refl l s

theorem onlyLane_abortLane (s : State) (l : LaneId) : OnlyLane l s (abortLane s l).1 := by
  unfold abortLane
  split
  · exact .refl l s
  · split
    · exact onlyLane_updLane l s fun x => { x with deferred := some .abort }
    · exact onlyLane_clearLane s l _ _
  · exact onlyLane_clearLane s l _ _

theorem wheelSound_resumeLane {s : State} (hs : s.wheelSound) (l : LaneId) : (resumeLane s l).1.wheelSound := by
  unfold resumeLane
  split
  · unfold resumeHalted
    dsimp only
    have hunhalted : (s.updLane l fun x => { x with haltReason := none, resume := none }).wheelSound := hs
    generalize (s.updLane l fun x => { x with haltReason := none, resume := none }) = u at hunhalted
    split
    · exact (onlyLane_settle u l _).wheelSound hunhalted
    · split
      · next t ht =>
        exact (onlyLane_completeWait t l).wheelSound ((keptByResults_wheelSound l).satisfyWait hunhalted ht)
      · exact hunhalted
    · exact (onlyLane_settle u l _).wheelSound hunhalted
  · exact hs

theorem wheelSound_laneCommandOf {s : State} (hs : s.wheelSound) (code : BitVec 3) (l : LaneId) :
    (laneCommandOf code s l).1.wheelSound := by
  rcases laneCommandOf_cases code with h | h | h | h | h | h | h <;> rw [h]
  · exact (onlyLane_enableLane s l).wheelSound hs
  · exact (onlyLane_disableLane s l).wheelSound hs
  · exact (onlyLane_startLane s l).wheelSound hs
  · exact (onlyLane_haltLane s l).wheelSound hs
  · exact wheelSound_resumeLane hs l
  · exact (onlyLane_abortLane s l).wheelSound hs
  · exact hs

theorem wheelSound_laneCommand {s : State} (hs : s.wheelSound) (lane : BitVec 4) (code : BitVec 3) :
    (laneCommand s lane (laneCommandOf code)).wheelSound := by
  unfold laneCommand
  split
  · exact wheelSound_laneCommandOf hs code _
  · exact hs

theorem onlyLane_redirectLane (s : State) (l : LaneId) (pointer : LAddr) : OnlyLane l s (redirectLane s l pointer) :=
  (((((onlyLane_dropCopy s l).trans (onlyLane_release _ l .hop)).trans (onlyLane_release _ l .src)).trans
    (onlyLane_release _ l .dst)).trans (onlyLane_updLane l _ _)).trans (onlyLane_retarget _ l .walk _)

theorem wheelSound_writeRecordPointer {s : State} (hs : s.wheelSound) (v : Half) :
    (writeRecordPointer s v).wheelSound := by
  unfold writeRecordPointer
  dsimp only
  split
  · split
    · exact (onlyLane_redirectLane s _ _).wheelSound hs
    · exact hs
  · exact hs

theorem wheelSound_writeLaneSelect {s : State} (hs : s.wheelSound) (v : Half) : (writeLaneSelect s v).wheelSound := by
  unfold writeLaneSelect
  split <;> exact hs

/-! ### Lookups and shootdowns -/

theorem wheelSound_lookupStart {s : State} (hs : s.wheelSound) : (lookupStart s).wheelSound := by
  unfold lookupStart
  split <;> exact hs

theorem wheelSound_lookupCompletion {s : State} (hs : s.wheelSound) : (lookupCompletion s).wheelSound := by
  cases hk : s.map.lookup with
  | none => simpa [lookupCompletion, hk] using hs
  | some k => exact (onlyLane_lookupCompletion s k hk).wheelSound hs

theorem wheelSound_shootdown {s : State} (hs : s.wheelSound) (page : BitVec 7) : (shootdown s page).wheelSound := by
  have hstale : (staleOnShootdown s page).wheelSound := by
    unfold staleOnShootdown
    dsimp only
    split
    · split <;> exact hs
    · exact hs
  unfold shootdown
  refine wheelSound_foldl (fun t l ht => wheelSound_foldl (fun u r hu => ?_) allRoles ht) allLanes hstale
  exact (onlyLane_shootCursor page u l r).wheelSound hu

/-! ### Stream ports -/

theorem wheelSound_updPort {s : State} (hs : s.wheelSound) (p : PortId) (f : Port → Port) : (s.updPort p f).wheelSound := hs

theorem wheelSound_frameStart {s : State} (hs : s.wheelSound) (p : PortId) : (frameStart s p).wheelSound := by
  have htransmit {t : State} (ht : t.wheelSound) : (frameStartTransmit t p).wheelSound := by
    unfold frameStartTransmit
    dsimp only
    split
    · exact ht
    · split
      · refine wheelSound_releaseLanes ?_ p .tx
        split
        · exact wheelSound_setSignal (wheelSound_updPort ht p _) _
        · exact ht
      · exact ht
  unfold frameStart
  dsimp only
  refine htransmit ?_
  split
  · unfold frameError
    split <;> exact hs
  · exact hs

theorem wheelSound_offerReceived {s : State} (hs : s.wheelSound) (p : PortId) (w : Word) :
    (offerReceived s p w).wheelSound := by
  unfold offerReceived
  dsimp only
  split
  · exact hs
  · split
    · exact hs
    · refine wheelSound_releaseLanes ?_ p .rx
      split
      · exact wheelSound_setSignal (wheelSound_updPort hs p _) _
      · exact hs

theorem wheelSound_frameEnd {s : State} (hs : s.wheelSound) (p : PortId) (sdi : Bool) : (frameEnd s p sdi).wheelSound := by
  unfold frameEnd
  dsimp only
  split
  · exact wheelSound_offerReceived (wheelSound_updPort hs p _) p _
  · exact hs

theorem wheelSound_sckPeriod {s : State} (hs : s.wheelSound) (p : PortId) (sdi : Bool) :
    (sckPeriod s p sdi).wheelSound := by
  unfold sckPeriod
  dsimp only
  split
  · exact hs
  · split
    · exact hs
    · exact wheelSound_frameEnd hs p sdi

theorem wheelSound_discardHeld {s : State} (hs : s.wheelSound) (p : PortId) : (discardHeld s p).wheelSound := by
  unfold discardHeld
  split
  · next hb =>
    split
    · split
      · exact wheelSound_withBeat hs fun hnone => by simp [hb] at hnone
      · exact hs
    · exact hs
  · exact hs

theorem wheelSound_disableRx {s : State} (hs : s.wheelSound) (p : PortId) : (disableRx s p).wheelSound := by
  unfold disableRx
  exact wheelSound_faultWaiters (wheelSound_updPort hs p _) p .rx .src

theorem wheelSound_disableTx {s : State} (hs : s.wheelSound) (p : PortId) : (disableTx s p).wheelSound := by
  unfold disableTx
  exact wheelSound_faultWaiters (wheelSound_discardHeld (wheelSound_updPort hs p _) p) p .tx .dst

theorem wheelSound_writePortConfig {s : State} (hs : s.wheelSound) (p : PortId) (v : Half) :
    (writePortConfig s p v).wheelSound := by
  unfold writePortConfig
  dsimp only
  generalize hc : s.updPort p _ = c
  have hset : c.wheelSound := hc ▸ wheelSound_updPort hs p _
  split
  · refine wheelSound_disableTx ?_ p
    split
    · exact wheelSound_disableRx hset p
    · exact hset
  · split
    · exact wheelSound_disableRx hset p
    · exact hset

/-! ### The window -/

theorem wheelSound_commitItem {s t : State} (hs : s.wheelSound) {item : Item32} {w : Word}
    (h : commitItem s item w = some t) : t.wheelSound := by
  cases item with
  | mapEntry page =>
    simp only [commitItem, commitMapEntry] at h
    split at h
    · rw [← Option.some.inj h]
      refine wheelSound_shootdown ?_ page
      exact hs
    · contradiction
  | idleWord p => exact Option.some.inj h ▸ hs
  | aperture a => exact Option.some.inj h ▸ hs
  | slotCount => contradiction
  | beats => contradiction

theorem wheelSound_splitHighWrite {s : State} (hs : s.wheelSound) (item : Item32) (v : Half) :
    (splitHighWrite s item v).wheelSound := by
  unfold splitHighWrite
  split
  · exact hs
  · split
    · exact hs
    · split
      · split
        · next h => exact wheelSound_congr (wheelSound_commitItem hs h) rfl rfl rfl rfl
        · exact hs
      · exact hs

theorem wheelSound_splitLowWrite {s : State} (hs : s.wheelSound) (item : Item32) (v : Half) :
    (splitLowWrite s item v).wheelSound := by
  unfold splitLowWrite
  split
  · exact hs
  · split <;> exact hs

theorem wheelSound_popQueue {s : State} (hs : s.wheelSound) : (popQueue s).wheelSound := by
  unfold popQueue
  split
  · exact hs
  · refine wheelSound_releaseQueue ?_
    exact hs

/-- A host write of any item keeps the wheel sound (R174). -/
theorem wheelSound_writeItem {s : State} (hs : s.wheelSound) (hpin : s.resetPin = false) (i : Item)
    (offset : WindowOffset) (v : Half) : (writeItem s i offset v).wheelSound := by
  unfold writeItem
  split
  · exact wheelSound_globalCommandOf hs hpin _
  · exact hs
  · exact hs
  · exact hs
  · exact wheelSound_setSignals hs v
  · exact hs
  · exact hs
  · exact wheelSound_writeSlotPeriod hs v
  · exact wheelSound_laneCommand hs _ _
  · exact hs
  · exact wheelSound_writeLaneSelect hs v
  · exact wheelSound_writeRecordPointer hs v
  · exact hs
  · exact hs
  · exact wheelSound_popQueue hs
  · exact wheelSound_writePortConfig hs _ v
  · exact hs
  · exact hs
  · exact hs
  · exact wheelSound_writeScheduleEntry hs _ _ v
  · exact wheelSound_splitLowWrite hs _ v
  · exact wheelSound_splitHighWrite hs _ v
  · exact hs
  · exact hs

/-- A host read keeps the wheel sound: it changes the window at most (R163, R166, R177). -/
theorem wheelSound_readItem {s : State} (hs : s.wheelSound) (i : Item) : (readItem s i).wheelSound := by
  unfold readItem
  split
  · unfold splitLowRead
    split <;> exact hs
  · unfold splitHighRead
    split <;> exact hs
  · exact hs
  · exact hs

theorem wheelSound_hostReading {s : State} (hs : s.wheelSound) (i : Item) :
    (hostReading s fun s => readItem s i).wheelSound := by
  unfold hostReading
  split
  · exact hs
  · exact wheelSound_readItem hs i

theorem wheelSound_unlessReset {s : State} (hs : s.wheelSound) {f : State → State}
    (hf : s.resetPin = false → (f s).wheelSound) : (unlessReset s f).wheelSound :=
  unlessReset_cases (p := State.wheelSound) hs hf

theorem wheelSound_hostAccess {s : State} (hs : s.wheelSound) (offset : WindowOffset) (a : Access) :
    (hostAccess s offset a).wheelSound := by
  cases a with
  | read => exact wheelSound_hostReading hs _
  | write v => exact wheelSound_unlessReset hs fun hpin => wheelSound_writeItem hs hpin _ _ v

/-- Every command keeps the wheel sound. -/
theorem wheelSound_exec {s : State} (hs : s.wheelSound) (c : Instr) : Runs c s State.wheelSound := by
  have hevent {f : State → State} (hf : (f s).wheelSound) : (unlessReset s f).wheelSound :=
    wheelSound_unlessReset hs fun _ => hf
  have hlane {lane : BitVec 4} (code : BitVec 3) :
      (unlessReset s fun s => laneCommand s lane (laneCommandOf code)).wheelSound :=
    hevent (wheelSound_laneCommand hs lane code)
  have hglobal (code : BitVec 4) : (unlessReset s fun s => globalCommand s (globalCommandOf code)).wheelSound :=
    wheelSound_unlessReset hs fun hpin => wheelSound_globalCommandOf hs hpin code
  cases c with
  | enable lane => exact ⟨_, rfl, hlane 1⟩
  | disable lane => exact ⟨_, rfl, hlane 2⟩
  | start lane => exact ⟨_, rfl, hlane 3⟩
  | halt lane => exact ⟨_, rfl, hlane 4⟩
  | resume lane => exact ⟨_, rfl, hlane 5⟩
  | abort lane => exact ⟨_, rfl, hlane 6⟩
  | laneCommandUnknown lane code => exact ⟨_, rfl, hlane code⟩
  | wheelStart => exact ⟨_, rfl, hglobal 1⟩
  | wheelStop => exact ⟨_, rfl, hglobal 2⟩
  | wheelRewind => exact ⟨_, rfl, hglobal 3⟩
  | softReset => exact ⟨_, rfl, hglobal 4⟩
  | erase => exact ⟨_, rfl, hglobal 5⟩
  | globalCommandUnknown code => exact ⟨_, rfl, hglobal code⟩
  | clearPassEnd => exact ⟨_, rfl, hevent (wheelSound_clearPassEnd hs)⟩
  | resetAssert => exact ⟨_, rfl, wheelSound_stopped rfl rfl (show 8 ≤ (256 : Half).toNat by decide) rfl⟩
  | resetRelease => exact ⟨_, rfl, wheelSound_resetRelease hs⟩
  | recordPointerWrite v => exact ⟨_, rfl, hevent (wheelSound_writeRecordPointer hs v)⟩
  | laneConfigWrite v => exact ⟨_, rfl, hevent hs⟩
  | laneSelectWrite v => exact ⟨_, rfl, hevent (wheelSound_writeLaneSelect hs v)⟩
  | recordWordsRead => exact ⟨_, rfl, wheelSound_hostReading hs .recordWords⟩
  | scheduleEntryWrite table e v => exact ⟨_, rfl, hevent (wheelSound_writeScheduleEntry hs table e v)⟩
  | slotPeriodWrite v => exact ⟨_, rfl, hevent (wheelSound_writeSlotPeriod hs v)⟩
  | tableSelectWrite v => exact ⟨_, rfl, hevent hs⟩
  | splitLowRead item => exact ⟨_, rfl, wheelSound_hostReading hs (.split item .low)⟩
  | splitHighRead item => exact ⟨_, rfl, wheelSound_hostReading hs (.split item .high)⟩
  | splitLowWrite item v => exact ⟨_, rfl, hevent (wheelSound_splitLowWrite hs item v)⟩
  | mapEntryCommit page v => exact ⟨_, rfl, hevent (wheelSound_splitHighWrite hs _ v)⟩
  | apertureWordCommit word v => exact ⟨_, rfl, hevent (wheelSound_splitHighWrite hs _ v)⟩
  | portIdleWordCommit p v => exact ⟨_, rfl, hevent (wheelSound_splitHighWrite hs _ v)⟩
  | aperturePageWrite v => exact ⟨_, rfl, hevent hs⟩
  | signalSet v => exact ⟨_, rfl, hevent (wheelSound_setSignals hs v)⟩
  | signalClear v => exact ⟨_, rfl, hevent hs⟩
  | queuePop v => exact ⟨_, rfl, hevent (wheelSound_popQueue hs)⟩
  | queueThresholdWrite v => exact ⟨_, rfl, hevent hs⟩
  | intStatusWrite v => exact ⟨_, rfl, hevent hs⟩
  | intEnableWrite v => exact ⟨_, rfl, hevent hs⟩
  | portRxEnable p v => exact ⟨_, rfl, hevent (wheelSound_writePortConfig hs p _)⟩
  | portTxEnable p v => exact ⟨_, rfl, hevent (wheelSound_writePortConfig hs p _)⟩
  | portRxDisable p v => exact ⟨_, rfl, hevent (wheelSound_writePortConfig hs p _)⟩
  | portTxDisable p v => exact ⟨_, rfl, hevent (wheelSound_writePortConfig hs p _)⟩
  | portStatusWrite p v => exact ⟨_, rfl, hevent hs⟩
  | portCounterWrite p counter v => exact ⟨_, rfl, hevent hs⟩
  | registerWrite offset v => exact ⟨_, rfl, wheelSound_hostAccess hs offset (.write v)⟩
  | unusedOffsetAccess offset a => exact ⟨_, rfl, wheelSound_hostAccess hs offset a⟩
  | slotTick => exact ⟨_, rfl, hevent (wheelSound_slotTick hs)⟩
  | waitTimeout l => exact ⟨_, rfl, hevent (wheelSound_waitTimeout hs l)⟩
  | recordLoad words => exact ⟨_, rfl, hevent (wheelSound_recordLoad hs _)⟩
  | cellRead => exact ⟨_, rfl, hevent (wheelSound_cellRead hs)⟩
  | wordStep part => exact ⟨_, rfl, hevent (wheelSound_wordStep hs part)⟩
  | beatEnd => exact ⟨_, rfl, hevent (wheelSound_beatEnd hs)⟩
  | lookupStart => exact ⟨_, rfl, hevent (wheelSound_lookupStart hs)⟩
  | lookupCompletion => exact ⟨_, rfl, hevent (wheelSound_lookupCompletion hs)⟩
  | frameStart p => exact ⟨_, rfl, hevent (wheelSound_frameStart hs p)⟩
  | frameEnd p sdi => exact ⟨_, rfl, hevent (wheelSound_frameEnd hs p sdi)⟩
  | sckPeriod p sdi => exact ⟨_, rfl, hevent (wheelSound_sckPeriod hs p sdi)⟩

/-- Settles O60: a step is a command or a timebase tick, and each keeps the wheel sound. -/
theorem noBeatMeetsAClearPass : Obligations.NoBeatMeetsAClearPass := by
  intro s t hs h
  unfold step at h
  split at h
  · next c rest _ =>
    obtain ⟨u, hu, hkept⟩ := wheelSound_exec (s := { s with pending := rest }) hs c
    exact Host.Outcome.next.inj (hu.symm.trans h) ▸ hkept
  · exact Host.Outcome.next.inj h ▸ wheelSound_unlessReset hs fun _ => wheelSound_timebaseTick hs

end Sys2Proof.Machine
end

section
/-! CERTIFICATE. The slot tick: overruns, own slots and spare slots, and the advance (R52 to R57, R59); O29, O30. -/

namespace Sys2Proof.Machine

/-! ### A slot tick from its decision -/

/-- A bit that no completion sets. -/
theorem completionInts_high (p : LAddr) (step : Bool) {n : Nat} (h : 3 ≤ n) : (completionInts p step).getLsbD n = false := by
  by_cases hn : n < 8
  · unfold completionInts
    split
    · interval_cases n <;> rfl
    · cases step <;> interval_cases n <;> rfl
  · exact BitVec.getLsbD_of_ge _ _ (by omega)

/-- The lanes that count nothing keep their context through the counts (R126). -/
theorem countedThrough_uncounted {s t : State} (h : CountedThrough allLanes s t) {l : LaneId}
    (hl : countedWait (s.lane l) = none) : t.lane l = s.lane l := by
  rw [(h.lane l (mem_allLanes l)).goesOn (timesOut_of_uncounted hl), Lane.countedDown, hl]

theorem tickAdvanced_lane (s : State) (l : LaneId) : s.tickAdvanced.lane l = (decideSlot s).lane l := by
  rw [tickAdvanced_eq]
  rfl

/-- What a slot tick leaves, from what its slot decides (R57, R58). -/
theorem slotTick_frame {s u : State} (hpin : s.resetPin = false) (hrun : s.wheel.running = true) (hu : decideSlot s = u) :
    Runs .slotTick s fun t =>
      t.beat = u.beat ∧ t.wheel = u.wheel.advanced ∧ TickFrame s t u.lane ∧ TickInterrupts s t s.beat.isSome := by
  have hdecided := hu ▸ slotDecided_decideSlot s
  have hcount := countedThrough_countTimeouts s.tickAdvanced
  have hbits (n : Nat) (hn : 3 ≤ n) : (countTimeouts s.tickAdvanced).ints.status.getLsbD n =
      ((s.ints.status.getLsbD n || (s.beat.isSome && (0x10 : BitVec 8).getLsbD n)) ||
        (s.wheel.swaps && (0x20 : BitVec 8).getLsbD n)) := by
    rw [hcount.laneBits n (by omega), tickAdvanced_eq, decideSlot_ints]
    have hnone : (allLanes.any fun _ => false) = false := rfl
    simp only [Interrupts.getLsbD_setting, getLsbD_ite_zero, completionInts_high _ _ hn, Bool.and_false, hnone,
      Bool.or_false]
  refine ⟨_, (exec_slotTick hpin).trans (congrArg _ (slotTick_running hrun)), ?_⟩
  have hadvanced := tickAdvanced_eq s
  rw [hu] at hadvanced
  generalize countTimeouts s.tickAdvanced = t at hcount hbits
  refine ⟨?_, ?_, ⟨fun l hl => ?_, ?_, ?_, ?_, ?_, ?_, ?_, ?_, ?_⟩, ?_, ?_, ?_, ?_⟩
  · rw [hcount.beat, hadvanced]
  · rw [hcount.wheel, hadvanced]
  · rw [countedThrough_uncounted hcount, tickAdvanced_lane, hu]
    rwa [tickAdvanced_lane, hu, hdecided.countedWait]
  · rw [hcount.signals, hadvanced, hdecided.rest]
  · rw [hcount.ports, hadvanced, hdecided.rest]
  · rw [hcount.mem, hadvanced, hdecided.rest]
  · rw [hcount.entries, hadvanced, hdecided.rest]
  · rw [hcount.clearing, hadvanced, hdecided.rest]
  · rw [hcount.resetPin, hadvanced, hdecided.rest]
  · rw [hcount.pending, hadvanced, hdecided.rest]
  · rw [hcount.window, hadvanced, hdecided.rest]
  · rw [hcount.enable, hadvanced, ← hu, decideSlot_ints]
    rfl
  · rw [hbits 4 (by omega)]
    simp
  · rw [hbits 5 (by omega)]
    simp [Wheel.swaps]
  · intro i hi
    rw [hbits i (by simp at hi; omega)]
    fin_cases hi <;> simp

/-! ### The choice of a lane -/

/-- A lane that the spare assignment may serve for its credit (R55). -/
def State.creditReady (s : State) (l : LaneId) : Bool := s.ready l && decide (0 < (s.lane l).credit)

/-- The credit pass comes to a lane: it is taken up if it may be served and has more credit than the one taken up so far
(R55). -/
def State.creditPass (s : State) (best : Option LaneId) (l : LaneId) : Option LaneId :=
  if s.creditReady l then
    match best with
    | none => some l
    | some k => if (s.lane k).credit < (s.lane l).credit then some l else some k
  else best

theorem creditChoice_eq (s : State) : creditChoice s = allLanes.foldl s.creditPass none := rfl

theorem creditPass_skip {s : State} {l : LaneId} (h : s.creditReady l = false) (best : Option LaneId) :
    s.creditPass best l = best := if_neg (by simp [h])

theorem creditPass_none {s : State} {l : LaneId} (h : s.creditReady l = true) : s.creditPass none l = some l := if_pos h

theorem creditPass_some {s : State} {l : LaneId} (h : s.creditReady l = true) (k : LaneId) :
    s.creditPass (some k) l = if (s.lane k).credit < (s.lane l).credit then some l else some k := if_pos h

/-- A lane taken up stays while no later one has more credit. -/
theorem foldl_creditPass_keeps {s : State} {l : LaneId} :
    ∀ ls : List LaneId, (∀ k ∈ ls, s.creditReady k = true → (s.lane k).credit ≤ (s.lane l).credit) →
      ls.foldl s.creditPass (some l) = some l
  | [], _ => rfl
  | k :: ls, h => by
    have hkeep : s.creditPass (some l) k = some l := by
      cases hk : s.creditReady k with
      | false => exact creditPass_skip hk _
      | true => rw [creditPass_some hk, if_neg (Nat.not_lt.mpr (h k (by simp) hk))]
    rw [List.foldl_cons, hkeep]
    exact foldl_creditPass_keeps ls fun j hj => h j (by simp [hj])

/-- The lane with the largest credit, the lowest-numbered of equals, is taken up from whatever a lower one has left (R55). -/
theorem foldl_creditPass_reaches {s : State} {l : LaneId} (hl : s.creditReady l = true)
    (hmost : ∀ k, s.creditReady k = true →
      (s.lane k).credit ≤ (s.lane l).credit ∧ (k < l → (s.lane k).credit < (s.lane l).credit)) :
    ∀ (ls : List LaneId) (best : Option LaneId), ls.Pairwise (· < ·) → l ∈ ls →
      (∀ k, best = some k → (s.lane k).credit < (s.lane l).credit) → ls.foldl s.creditPass best = some l
  | k :: ls, best, hsorted, hmem, hbest => by
    obtain ⟨hfirst, hrest⟩ := List.pairwise_cons.mp hsorted
    rw [List.foldl_cons]
    rcases List.mem_cons.mp hmem with rfl | hmem
    · have htake : s.creditPass best l = some l := by
        cases best with
        | none => exact creditPass_none hl
        | some k => rw [creditPass_some hl, if_pos (hbest k rfl)]
      rw [htake]
      exact foldl_creditPass_keeps ls fun k _ hk => (hmost k hk).1
    · refine foldl_creditPass_reaches hl hmost ls _ hrest hmem fun j hj => ?_
      cases hk : s.creditReady k with
      | false => exact hbest j (creditPass_skip hk best ▸ hj)
      | true =>
        have hless := (hmost k hk).2 (hfirst l hmem)
        cases best with
        | none =>
          rw [creditPass_none hk] at hj
          exact Option.some.inj hj ▸ hless
        | some i =>
          rw [creditPass_some hk] at hj
          split at hj
          · exact Option.some.inj hj ▸ hless
          · exact hbest j hj

theorem creditChoice_eq_some {s : State} {l : LaneId} (hl : s.creditReady l = true)
    (hmost : ∀ k, s.creditReady k = true →
      (s.lane k).credit ≤ (s.lane l).credit ∧ (k < l → (s.lane k).credit < (s.lane l).credit)) :
    creditChoice s = some l := by
  rw [creditChoice_eq]
  exact foldl_creditPass_reaches hl hmost allLanes none (by decide) (mem_allLanes l) (by simp)

theorem creditChoice_eq_none {s : State} (h : ∀ k, s.creditReady k = false) : creditChoice s = none := by
  rw [creditChoice_eq]
  exact List.foldlRecOn allLanes s.creditPass (motive := fun best => best = none) rfl fun best hbest k _ => by
    rw [creditPass_skip (h k), hbest]

/-! The rotation from the lane after the pointer upward (R56). -/

/-- The lane at a distance in rotation after the pointer. -/
def rotated (pointer k : LaneId) : LaneId := Fin.ofNat 12 (pointer.val + 1 + k.val)

theorem rotationDistance_rotated (pointer k : LaneId) : rotationDistance pointer (rotated pointer k) = k.val := by
  revert pointer k
  decide

theorem exists_rotated (pointer l : LaneId) : ∃ k, rotated pointer k = l := by
  revert pointer l
  decide

theorem rotationChoice_eq (s : State) :
    rotationChoice s = (allLanes.find? fun k => s.spareReady (rotated s.wheel.rotation k)).map (rotated s.wheel.rotation) :=
  List.find?_map ..

/-- In an ascending list of lanes the least that passes a test is the one found. -/
theorem find?_least_lane {p : LaneId → Bool} {n : LaneId} (hn : p n = true) (hlow : ∀ m, m < n → p m = false) :
    allLanes.find? p = some n := by
  have hat (i : Nat) (h : i < 12) : allLanes[i]'h = ⟨i, h⟩ := by
    interval_cases i <;> rfl
  refine List.find?_eq_some_iff_getElem.mpr ⟨hn, n.val, n.isLt, hat n.val n.isLt, fun j hj => ?_⟩
  have hnot := hlow ⟨j, hj.trans n.isLt⟩ hj
  exact (congrArg (fun k => !p k) (hat j (hj.trans n.isLt))).trans (by simp [hnot])

theorem rotationChoice_eq_some {s : State} {l : LaneId} (hl : s.spareReady l = true)
    (hnear : ∀ k, s.spareReady k = true → rotationDistance s.wheel.rotation l ≤ rotationDistance s.wheel.rotation k) :
    rotationChoice s = some l := by
  obtain ⟨d, rfl⟩ := exists_rotated s.wheel.rotation l
  rw [rotationChoice_eq, find?_least_lane (p := fun k => s.spareReady (rotated _ k)) hl fun m hm => ?_, Option.map_some]
  by_contra hready
  have hfar := hnear _ (by simpa using hready)
  rw [rotationDistance_rotated, rotationDistance_rotated] at hfar
  exact Fin.not_lt.mpr hfar hm

theorem rotationChoice_eq_none {s : State} (h : ∀ l, s.spareReady l = false) : rotationChoice s = none :=
  List.find?_eq_none.mpr fun l _ => by
    have hl := h l
    rw [State.spareReady] at hl
    simp [hl]

/-! ### Overruns and own slots -/

theorem decideSlot_busy {s : State} (h : s.beat.isSome = true) : decideSlot s = overrun s := if_pos h

theorem decideSlot_own {s : State} (h : s.beat = none) {l : LaneId} (hl : s.wheel.nextEntry.named = some l)
    (hready : s.ready l = true) : decideSlot s = { s with beat := s.beatFor l } := by
  rw [← beginBeat_eq h]
  simp [decideSlot, h, hl, hready]

/-- Settles O29, by whether a beat is in progress. -/
theorem slotTicksServeTheirOwnLaneOrOverrun : Obligations.SlotTicksServeTheirOwnLaneOrOverrun := by
  intro s hpin hrun
  constructor
  · intro hbusy
    have htick := slotTick_frame hpin hrun (decideSlot_busy hbusy)
    rwa [hbusy] at htick
  · intro hnone l hl hready
    obtain ⟨t, hexec, hbeat, hwheel, hframe, hints⟩ := slotTick_frame hpin hrun (decideSlot_own hnone hl hready)
    rw [hnone] at hints
    exact ⟨t, hexec, hbeat, hbeat ▸ State.beatFor_of_ready hready, hwheel, hframe, hints⟩

/-! ### Spare slots -/

/-- The state in which a spare slot is assigned: a BLOCKED lane that the entry names has gained (R54). -/
def State.gained (s : State) : State :=
  match s.wheel.nextEntry.named with
  | some l => gainCredit s l
  | none => s

theorem gained_lane (s : State) (k : LaneId) : s.gained.lane k = s.afterGain k := by
  unfold State.gained State.afterGain gainCredit
  cases s.wheel.nextEntry.named with
  | none => simp
  | some l =>
    by_cases hstate : (s.lane l).state = .blocked
    · by_cases e : k = l
      · simp [hstate, e]
      · simp [hstate, e, Ne.symm e, State.lane_updLane_other]
    · have hnot : ¬ (l = k ∧ (s.lane k).state = .blocked) := fun h => hstate (h.1 ▸ h.2)
      simp [hstate, hnot]

theorem gained_eq (s : State) : s.gained = { s with lanes := s.gained.lanes } := by
  unfold State.gained gainCredit
  split
  · split <;> rfl
  · rfl

theorem slotDecided_gained (s : State) : SlotDecided s s.gained := by
  unfold State.gained
  split
  · exact slotDecided_gainCredit s _
  · exact .refl s

/-- A READY lane is not BLOCKED and gains nothing. -/
theorem afterGain_of_ready {s : State} {l : LaneId} (h : s.ready l = true) : s.afterGain l = s.lane l := by
  have hactive := (State.ready_iff.mp h).1
  exact if_neg (by simp [hactive])

theorem gained_ready (s : State) (l : LaneId) : s.gained.ready l = s.ready l := by
  have hown : s.gained.ownBeat = s.ownBeat := State.ownBeat_congr (by rw [gained_eq])
  unfold State.ready
  rw [(slotDecided_gained s).lanes l, hown]
  rfl

theorem gained_spareReady (s : State) (l : LaneId) : s.gained.spareReady l = s.spareReady l := by
  unfold State.spareReady
  rw [gained_ready, (slotDecided_gained s).lanes l]

theorem gained_creditReady {s : State} {l : LaneId} :
    s.gained.creditReady l = true ↔ s.ready l = true ∧ 0 < (s.lane l).credit := by
  simp only [State.creditReady, gained_ready, Bool.and_eq_true, decide_eq_true_eq, gained_lane]
  exact and_congr_right fun h => by rw [afterGain_of_ready h]

/-- The beat of a lane takes neither its credit nor its missed slots (R59). -/
theorem SlotDecided.beatFor {s u : State} (h : SlotDecided s u) (l : LaneId) : u.beatFor l = s.beatFor l := by
  unfold State.beatFor
  rw [h.lanes l]
  rfl

theorem decideSlot_spare {s : State} (h : s.beat = none) (hown : s.ownSlotLane = none) :
    decideSlot s = spareAssignment s.gained := by
  rw [State.ownSlotLane] at hown
  rw [decideSlot, if_neg (by simp [h]), State.gained]
  cases hl : s.wheel.nextEntry.named with
  | none => rfl
  | some l =>
    have hnot : ¬ s.ready l = true := fun hready => by simp [hl, hready] at hown
    exact if_neg hnot

/-- A lane that spends a credit (R55). -/
def Lane.spent (x : Lane) : Lane := { x with credit := x.credit - 1 }

/-- A spare slot served for credit (R55). -/
theorem spareAssignment_credit {s : State} (h : s.beat = none) {l : LaneId} (hl : creditChoice s = some l) :
    spareAssignment s = { s.updLane l Lane.spent with beat := s.beatFor l } := by
  have hactive := (State.ready_iff.mp (creditChoice_ready hl)).1
  have hspent : SlotDecided s (s.updLane l Lane.spent) :=
    slotDecided_updLane (credit := fun x => x.credit - 1) (missed := Lane.missed) (by simp [hactive])
  have hbegin := beginBeat_eq (s := s.updLane l Lane.spent) h l
  rw [hspent.beatFor] at hbegin
  unfold spareAssignment
  simp only [hl]
  exact hbegin

/-- A spare slot served in rotation (R56). -/
theorem spareAssignment_rotation {s : State} (h : s.beat = none) (hcredit : creditChoice s = none) {l : LaneId}
    (hl : rotationChoice s = some l) :
    spareAssignment s = { s with beat := s.beatFor l, wheel := { s.wheel with rotation := l } } := by
  unfold spareAssignment
  simp only [hcredit, hl]
  exact beginBeat_eq (s := { s with wheel := { s.wheel with rotation := l } }) h l

/-- An idle slot (R56). -/
theorem spareAssignment_idle {s : State} (hcredit : creditChoice s = none) (hl : rotationChoice s = none) :
    spareAssignment s = s := by
  simp [spareAssignment, hcredit, hl]

/-- A spare slot's tick, from what the assignment makes of the lane table, the beat and the rotation pointer. -/
theorem slotTick_spare {s u : State} (hpin : s.resetPin = false) (hrun : s.wheel.running = true) (hnone : s.beat = none)
    (hown : s.ownSlotLane = none) (hu : spareAssignment s.gained = u) {lanes : LaneId → Lane}
    (hlanes : ∀ k, u.lane k = lanes k) :
    Runs .slotTick s fun t =>
      t.beat = u.beat ∧ t.wheel = u.wheel.advanced ∧ TickFrame s t lanes ∧ TickInterrupts s t false := by
  have htick := slotTick_frame hpin hrun ((decideSlot_spare hnone hown).trans hu)
  rwa [hnone, funext hlanes] at htick

/-- Settles O30, by whether a READY lane has credit, and else by whether one is spare-eligible. -/
theorem spareSlotsGoToCreditThenRotation : Obligations.SpareSlotsGoToCreditThenRotation := by
  intro s hpin hrun hnone hown
  have hbeat : s.gained.beat = none := by rw [gained_eq, hnone]
  have hwheel : s.gained.wheel = s.wheel := by rw [gained_eq]
  have hsame (l : LaneId) : s.gained.beatFor l = s.beatFor l := (slotDecided_gained s).beatFor l
  have hnoCredit (h : ∀ k, s.ready k = true → (s.lane k).credit = 0) : creditChoice s.gained = none :=
    creditChoice_eq_none fun k => by
      by_contra hk
      obtain ⟨hready, hcredit⟩ := gained_creditReady.mp (by simpa using hk)
      exact absurd (h k hready) (by omega)
  refine ⟨fun l hready hcredit hmost => ?_, fun hzero l hl hnear => ?_, fun hzero hidle => ?_⟩
  · have hchoice : creditChoice s.gained = some l := by
      refine creditChoice_eq_some (gained_creditReady.mpr ⟨hready, hcredit⟩) fun k hk => ?_
      obtain ⟨hk, -⟩ := gained_creditReady.mp hk
      rw [gained_lane, gained_lane, afterGain_of_ready hk, afterGain_of_ready hready]
      exact hmost k hk
    obtain ⟨t, hexec, htb, htw, hframe, hints⟩ := slotTick_spare hpin hrun hnone hown
      (spareAssignment_credit hbeat hchoice)
      (lanes := fun k => if k = l then (s.lane l).spent else s.afterGain k) fun k => by
        refine (State.lane_updLane s.gained l k Lane.spent).trans ?_
        rw [gained_lane, gained_lane, afterGain_of_ready hready]
    exact ⟨t, hexec, htb.trans (hsame l), htb.trans (hsame l) ▸ State.beatFor_of_ready hready, htw.trans (by rw [← hwheel]; rfl),
      hints, hframe⟩
  · have hchoice : rotationChoice s.gained = some l := by
      refine rotationChoice_eq_some ((gained_spareReady s l).trans hl) fun k hk => ?_
      rw [hwheel]
      exact hnear k ((gained_spareReady s k).symm.trans hk)
    obtain ⟨t, hexec, htb, htw, hframe, hints⟩ := slotTick_spare hpin hrun hnone hown
      (spareAssignment_rotation hbeat (hnoCredit hzero) hchoice) (gained_lane s)
    have hready : s.ready l = true := by
      rw [State.spareReady, Bool.and_eq_true] at hl
      exact hl.1
    exact ⟨t, hexec, htb.trans (hsame l), htb.trans (hsame l) ▸ State.beatFor_of_ready hready, htw.trans (by rw [← hwheel]),
      hframe, hints⟩
  · have hchoice : rotationChoice s.gained = none :=
      rotationChoice_eq_none fun l => (gained_spareReady s l).trans (hidle l)
    obtain ⟨t, hexec, htb, htw, hframe, hints⟩ := slotTick_spare hpin hrun hnone hown
      (spareAssignment_idle (hnoCredit hzero) hchoice) (gained_lane s)
    exact ⟨t, hexec, htb.trans hbeat, htw.trans (by rw [hwheel]), hframe, hints⟩

end Sys2Proof.Machine
end

section
/-! CERTIFICATE. The timeouts a slot tick counts (R58, R126, R127; log 2, log 6); O31. -/

namespace Sys2Proof.Machine

/-! ### WAIT_TIMEOUT as a slot tick -/

theorem exec_waitTimeout {s : State} (h : s.resetPin = false) (l : LaneId) :
    exec (.waitTimeout l) s = .next (waitTimeout s l) :=
  congrArg Host.Outcome.next (unlessReset_run h _)

/-- The timeout of a lane at its last count is the slot tick (log 6). -/
theorem waitTimeout_due {s : State} {l : LaneId} (h : s.timesOut l = true) : waitTimeout s l = slotTick s := by
  obtain ⟨w, hw, -, hleft⟩ := countedWait_of_timesOut h
  simp [waitTimeout, hw, hleft]

/-- The timeout of any other lane is no event (log 2). -/
theorem waitTimeout_early {s : State} {l : LaneId} (h : s.timesOut l = false) : waitTimeout s l = s := by
  unfold waitTimeout
  split
  · next w hw =>
    rw [timesOut_of_countedWait hw] at h
    rw [if_neg (by simp [h])]
  · rfl

/-! ### What the decision and the advance leave to the counts -/

theorem tickAdvanced_lanes (s : State) (l : LaneId) : s.tickAdvanced.lane l =
    { s.lane l with credit := (s.tickAdvanced.lane l).credit, missed := (s.tickAdvanced.lane l).missed } := by
  rw [tickAdvanced_lane]
  exact (slotDecided_decideSlot s).lanes l

/-- A lane that waits meets the counts as it stood before the tick. -/
theorem tickAdvanced_waiting {s : State} {l : LaneId} (h : (s.lane l).state = .waiting) :
    s.tickAdvanced.lane l = s.lane l := by
  rw [tickAdvanced_lane]
  exact (slotDecided_decideSlot s).waiting l h

theorem tickAdvanced_queue (s : State) : s.tickAdvanced.queue = s.queue := by
  rw [tickAdvanced_eq, (slotDecided_decideSlot s).rest]

theorem tickAdvanced_slotCount (s : State) : s.tickAdvanced.wheel.slotCount = s.wheel.slotCount + 1 := by
  rw [tickAdvanced_eq, (slotDecided_decideSlot s).wheel]
  rfl

theorem tickAdvanced_timesOut (s : State) : s.tickAdvanced.timesOut = s.timesOut := by
  funext l
  unfold State.timesOut
  rw [tickAdvanced_lanes s l]

theorem tickAdvanced_postedAmong (s : State) (ls : List LaneId) : s.tickAdvanced.postedAmong ls = s.postedAmong ls := by
  have hposts : s.tickAdvanced.postsTimeout = s.postsTimeout := by
    funext l
    unfold State.postsTimeout
    rw [tickAdvanced_timesOut, tickAdvanced_lanes s l]
    rfl
  unfold State.postedAmong
  rw [hposts, tickAdvanced_queue]

theorem tickAdvanced_endsAmong (s : State) (ls : List LaneId) : s.tickAdvanced.endsAmong ls = s.endsAmong ls := by
  funext l
  unfold State.endsAmong
  rw [tickAdvanced_timesOut, tickAdvanced_postedAmong, tickAdvanced_lanes s l]
  rfl

/-- The entries that the counts push are those of the tick (R127). -/
theorem tickAdvanced_entries (s : State) : s.tickAdvanced.entriesAmong allLanes = s.timeoutEntries := by
  unfold State.entriesAmong State.timeoutEntries
  rw [tickAdvanced_postedAmong]
  refine List.map_congr_left fun ⟨l, k⟩ _ => ?_
  dsimp only
  rw [State.timeoutEntry, tickAdvanced_queue, tickAdvanced_slotCount, tickAdvanced_lanes s l]
  rfl

/-- The bits that the decision and the advance set are INT OVERRUN and INT SWAP (R52, R57). -/
theorem tickAdvanced_lowBits (s : State) {n : Nat} (h : n < 3) :
    s.tickAdvanced.ints.status.getLsbD n = s.ints.status.getLsbD n := by
  rw [tickAdvanced_eq, decideSlot_ints]
  simp only [Interrupts.getLsbD_setting, getLsbD_ite_zero]
  interval_cases n <;> simp

/-! ### The bits of a completion -/

theorem completionInts_fault (p : LAddr) (step : Bool) : (completionInts p step).getLsbD 1 = (p == 0x7FFC) := by
  by_cases e : p = 0x7FFC
  · rw [completionInts_last e, e]
    rfl
  · rw [completionInts_next e, beq_eq_false_iff_ne.mpr e]
    cases step <;> rfl

theorem completionInts_halt (p : LAddr) (step : Bool) : (completionInts p step).getLsbD 2 = (p != 0x7FFC && step) := by
  by_cases e : p = 0x7FFC
  · rw [completionInts_last e, e]
    rfl
  · rw [completionInts_next e, bne, beq_eq_false_iff_ne.mpr e]
    cases step <;> rfl

/-! ### A waiting lane -/

/-- What a slot tick makes of a WAITING lane, by its timeout left (R126, R127). -/
theorem slotTick_waiting {s : State} (hpin : s.resetPin = false) (hrun : s.wheel.running = true) {l : LaneId}
    (hwaits : (s.lane l).state = .waiting) :
    Runs .slotTick s fun t => LaneCounted (s.lane l) (s.timesOut l) (s.endsAmong allLanes l) (t.lane l) := by
  refine ⟨_, exec_slotTick hpin, ?_⟩
  have hlane := (countedThrough_countTimeouts s.tickAdvanced).lane l (mem_allLanes l)
  rwa [tickAdvanced_waiting hwaits, tickAdvanced_timesOut, tickAdvanced_endsAmong, ← slotTick_running hrun] at hlane

theorem Lane.countedDown_unlimited {x : Lane} {w : Wait} (hwait : x.wait = some w) (h : w.timeoutLeft = 0) :
    x.countedDown = x := by
  have hnone : countedWait x = none := by
    unfold countedWait
    split
    · next v _ hv =>
      obtain rfl : w = v := Option.some.inj (hwait.symm.trans hv)
      exact if_pos h
    · rfl
  rw [Lane.countedDown, hnone]

theorem Lane.countedDown_limited {x : Lane} {w : Wait} (hstate : x.state = .waiting) (hwait : x.wait = some w)
    (h : w.timeoutLeft ≠ 0) : x.countedDown = { x with wait := some { w with timeoutLeft := w.timeoutLeft - 1 } } := by
  have hsome : countedWait x = some w := by simp [countedWait, hstate, hwait, h]
  rw [Lane.countedDown, hsome]

/-- Settles O31: the counts of the tick's lanes, one after the other, from the state in which the wheel has advanced. -/
theorem waitTimeoutsCountAndEnd : Obligations.WaitTimeoutsCountAndEnd := by
  intro s hpin
  refine ⟨fun hstop => ⟨?_, fun l => ?_⟩, fun l hdue => ⟨?_, ?_⟩, fun l hearly => ?_, fun hrun hsound l hwaits w hw => ?_,
    fun hrun => ?_⟩
  · rw [exec_slotTick hpin, slotTick_stopped hstop]
  · rw [exec_waitTimeout hpin]
    rcases waitTimeout_cases s l with e | e <;> rw [e]
    rw [slotTick_stopped hstop]
  · rw [exec_waitTimeout hpin, exec_slotTick hpin, waitTimeout_due hdue]
  · refine ⟨_, (exec_waitTimeout hpin l).trans (congrArg _ (waitTimeout_due hdue)), fun hrun => ?_⟩
    have hcount := countedThrough_countTimeouts s.tickAdvanced
    have hdone := (hcount.lane l (mem_allLanes l)).done (by rw [tickAdvanced_timesOut, hdue])
    rw [slotTick_running hrun]
    exact ⟨hdone, by rw [hcount.wheel, tickAdvanced_slotCount]⟩
  · rw [exec_waitTimeout hpin, waitTimeout_early hearly]
  · obtain ⟨t, hexec, hlane⟩ := slotTick_waiting hpin hrun hwaits
    have hout : s.timesOut l = (w.timeoutLeft == 1) := by simp [State.timesOut, hwaits, hw]
    have hends : s.endsAmong allLanes l =
        ((w.timeoutLeft == 1) && (!w.postOnTimeout || s.timeoutsPosted.contains l)) := by
      rw [State.endsAmong, hout, Lane.postsOnTimeout, hw]
      rfl
    refine ⟨fun hleft => ⟨t, hexec, ?_⟩, fun hleft => ⟨t, hexec, ?_⟩, fun hleft hend => ⟨t, hexec, ?_⟩,
      fun hleft hpost hfull => ⟨t, hexec, ?_⟩⟩
    · exact (hlane.goesOn (by simp [hout, hleft])).trans (Lane.countedDown_unlimited hw hleft)
    · exact (hlane.goesOn (by simp [hout]; omega)).trans (Lane.countedDown_limited hwaits hw (by omega))
    · exact hlane.ended (by rcases hend with h | h <;> simp [hends, hleft, h]) (hsound.tidy l)
    · refine (hlane.held (by simp [hout, hleft]) (by simp [hends, hleft, hpost, hfull])).trans ?_
      simp [Lane.timeoutHeld, Lane.waitTag, hw]
  · have hcount := countedThrough_countTimeouts s.tickAdvanced
    refine ⟨_, (exec_slotTick hpin).trans (congrArg _ (slotTick_running hrun)), ?_⟩
    have hlength := congrArg List.length (tickAdvanced_entries s)
    have hempty := congrArg List.isEmpty (tickAdvanced_entries s)
    rw [length_entriesAmong] at hlength
    rw [isEmpty_entriesAmong] at hempty
    refine ⟨?_, ?_, ?_, ?_, ?_⟩
    · rw [hcount.signals, tickAdvanced_eq, (slotDecided_decideSlot s).rest]
    · rw [hcount.queue, tickAdvanced_entries, tickAdvanced_queue, hlength]
    · rw [hcount.queueBit, tickAdvanced_queue, tickAdvanced_lowBits s (by omega), hlength, hempty]
    · rw [hcount.laneBits 1 (by omega), tickAdvanced_lowBits s (by omega), tickAdvanced_endsAmong]
      congr 2
      funext l
      rw [completionInts_fault, tickAdvanced_lanes s l]
      rfl
    · rw [hcount.laneBits 2 (by omega), tickAdvanced_lowBits s (by omega), tickAdvanced_endsAmong]
      congr 2
      funext l
      rw [completionInts_halt, tickAdvanced_lanes s l, ← Bool.and_assoc]
      rfl

end Sys2Proof.Machine
end

section
/-! CERTIFICATE. The step, the wheel commands and the writes of the wheel's items (R48, R51, R61 to R64; log 1, log 2, log 13);
O1, O7, O18. -/

namespace Sys2Proof.Machine

/-! ### One step -/

theorem step_command {s : State} {c : Instr} {rest : List Instr} (h : s.pending = c :: rest) :
    step s = exec c { s with pending := rest } := by
  unfold step
  rw [h]

theorem step_idle {s : State} (h : s.pending = []) (hpin : s.resetPin = false) : step s = .next (timebaseTick s) := by
  unfold step
  rw [h, unlessReset_run hpin]

theorem timebaseTick_unarmed {s : State} (h : s.wheel.timer = none) : timebaseTick s = s := by
  unfold timebaseTick
  rw [h]

theorem timebaseTick_counts {s : State} {u : SlotTimer} (h : s.wheel.timer = some u) (hleft : u.elapsed + 1 < u.length) :
    timebaseTick s = { s with wheel := { s.wheel with timer := some ⟨u.length, u.elapsed + 1⟩ } } := by
  unfold timebaseTick
  rw [h]
  exact if_neg (by omega)

theorem timebaseTick_expires {s : State} {u : SlotTimer} (h : s.wheel.timer = some u) (hlast : u.length ≤ u.elapsed + 1) :
    timebaseTick s = slotTick s := by
  unfold timebaseTick
  rw [h]
  exact if_pos hlast

/-- Settles O1, by the queue, and by the slot timer if it is empty. -/
theorem stepRunsTheFrontCommandOrOneTimebaseTick : Obligations.StepRunsTheFrontCommandOrOneTimebaseTick := by
  refine ⟨fun c s => step_command rfl, fun s hempty hpin => ⟨fun htimer => ?_, fun u hu hleft => ?_, fun u hu hlast => ?_⟩⟩ <;>
    rw [step_idle hempty hpin]
  · rw [timebaseTick_unarmed htimer]
  · rw [timebaseTick_counts hu hleft]
  · rw [timebaseTick_expires hu hlast, exec_slotTick hpin]

/-! ### Wheel commands -/

/-- A global command outside RESET has its result placed in COMMAND_RESULT (R168). -/
theorem exec_globalCommand {s : State} {c : Instr} {command : State → State × CommandResult} (hpin : s.resetPin = false)
    (hc : exec c s = .next (unlessReset s fun s => globalCommand s command)) :
    exec c s = .next (setCommandResult (command s).1 (command s).2) := by
  rw [hc, unlessReset_run hpin, globalCommand]

/-- Settles O7, by the clear pass and the run state. -/
theorem wheelStartStopAndRewind : Obligations.WheelStartStopAndRewind := by
  intro s hpin
  have hstop := exec_globalCommand (c := .wheelStop) hpin rfl
  have hrewind := exec_globalCommand (c := .wheelRewind) hpin rfl
  refine ⟨(exec_globalCommand (c := .wheelStart) hpin rfl).trans (congrArg _ ?_), hstop.trans (congrArg _ ?_),
    fun hrun => ⟨_, hstop, ?_⟩, hrewind.trans (congrArg _ ?_), fun hstopped => ⟨_, hrewind, ?_⟩⟩
  · unfold startWheel
    split
    · rfl
    · split <;> rfl
  · unfold stopWheel
    split <;> rfl
  · have hwheel : (setCommandResult (stopWheel s).1 (stopWheel s).2).wheel = { s.wheel with running := false, timer := none } := by
      simp [stopWheel, hrun, setCommandResult]
    have hheld : (setCommandResult (stopWheel s).1 (stopWheel s).2).resetPin = false := by
      simp [stopWheel, hrun, setCommandResult, hpin]
    generalize setCommandResult (stopWheel s).1 (stopWheel s).2 = t at hwheel hheld
    have htick : slotTick t = t := slotTick_stopped (by rw [hwheel])
    refine ⟨by rw [exec_slotTick hheld, htick], fun l => ?_, fun hempty => ?_⟩
    · rw [exec_waitTimeout hheld]
      rcases waitTimeout_cases t l with e | e <;> rw [e]
      rw [htick]
    · rw [step_idle hempty hheld, timebaseTick_unarmed (by rw [hwheel])]
  · unfold rewindWheel
    split <;> rfl
  · simp [rewindWheel, hstopped, setCommandResult, Wheel.swapPending]

/-! ### Writes of the wheel's items -/

/-- A write of an entry reads back (R48). -/
theorem Wheel.table_setEntry_same (w : Wheel) (t : Table) (e : Fin 32) (x : ScheduleEntry) :
    ((w.setEntry t e x).table t).get e = x := by
  cases t <;> exact Vector.getElem_set_self e.isLt

/-- A write of an entry leaves every other entry of its table (R48). -/
theorem Wheel.table_setEntry_other (w : Wheel) (t : Table) {e f : Fin 32} (x : ScheduleEntry) (h : f ≠ e) :
    ((w.setEntry t e x).table t).get f = (w.table t).get f := by
  have hne : e.val ≠ f.val := fun eq => h (Fin.ext eq.symm)
  cases t <;> exact Vector.getElem_set_ne e.isLt f.isLt hne

/-- A write of an entry leaves the other table (R48). -/
theorem Wheel.table_setEntry_table (w : Wheel) {t u : Table} (e : Fin 32) (x : ScheduleEntry) (h : t ≠ u) :
    (w.setEntry t e x).table u = w.table u := by
  cases t with
  | a =>
    cases u with
    | a => exact absurd rfl h
    | b => rfl
  | b =>
    cases u with
    | a => rfl
    | b => exact absurd rfl h

theorem Wheel.setEntry_frame (w : Wheel) (t : Table) (e : Fin 32) (x : ScheduleEntry) :
    w.setEntry t e x = { w with tableA := (w.setEntry t e x).tableA, tableB := (w.setEntry t e x).tableB } := by
  cases t <;> rfl

theorem exec_scheduleEntryWrite {s : State} (hpin : s.resetPin = false) (t : Table) (e : Fin 32) (v : Half) :
    exec (.scheduleEntryWrite t e v) s = .next (writeScheduleEntry s t e v) :=
  congrArg Host.Outcome.next (unlessReset_run hpin _)

theorem writeScheduleEntry_active {s : State} {t : Table} (h : t = s.wheel.active) (e : Fin 32) (v : Half) :
    writeScheduleEntry s t e v = s.refuse .activeTable (scheduleOffset t e) := if_pos h

theorem laneOfField_isNone (field : BitVec 4) : (laneOfField field).isNone = true ↔ 12 ≤ field.toNat := by
  by_cases hfew : field.toNat < 12
  · simp [laneOfField_named hfew, Nat.not_le.mpr hfew]
  · simp [laneOfField_none (Nat.not_lt.mp hfew), Nat.not_lt.mp hfew]

/-- A write of a standby entry, by the lane field of the value: refused if it names no lane and VACANT is clear (R48). -/
theorem writeScheduleEntry_standby {s : State} {t : Table} (h : t ≠ s.wheel.active) (e : Fin 32) (v : Half) :
    writeScheduleEntry s t e v =
      if v.getLsbD 14 = false ∧ 12 ≤ (v.extractLsb' 0 4).toNat then s.refuse .badLane (scheduleOffset t e)
      else { s with wheel := s.wheel.setEntry t e (ScheduleEntry.ofHalf v) } := by
  unfold writeScheduleEntry
  dsimp only
  rw [if_neg h]
  refine if_congr ?_ rfl rfl
  simp only [ScheduleEntry.ofHalf, Bool.and_eq_true, Bool.not_eq_true', laneOfField_isNone]

theorem toNat_scheduleOffset (e : Fin 32) :
    (scheduleOffset .a e).toNat = 0x100 + 2 * e.val ∧ (scheduleOffset .b e).toNat = 0x140 + 2 * e.val := by
  revert e
  decide

/-- Settles O18, write by write. -/
theorem wheelItemWrites : Obligations.WheelItemWrites := by
  intro s t e v hpin
  have hexec := exec_scheduleEntryWrite hpin t e v
  have hperiod : exec (.slotPeriodWrite v) s = .next (writeSlotPeriod s v) :=
    congrArg Host.Outcome.next (unlessReset_run hpin _)
  refine ⟨fun hactive => ?_, fun hstandby hclear hnone => ?_, fun hstandby hfits => ⟨_, hexec, ?_⟩,
    (toNat_scheduleOffset e).1, (toNat_scheduleOffset e).2, fun hlong => ?_, fun hshort => ?_,
    congrArg Host.Outcome.next (unlessReset_run hpin _)⟩
  · rw [hexec, writeScheduleEntry_active hactive]
  · rw [hexec, writeScheduleEntry_standby hstandby, if_pos ⟨hclear, hnone⟩]
  · have hnot : ¬ (v.getLsbD 14 = false ∧ 12 ≤ (v.extractLsb' 0 4).toNat) := by
      rintro ⟨hclear, hnone⟩
      rcases hfits with h | h
      · exact Bool.false_ne_true (hclear.symm.trans h)
      · omega
    rw [writeScheduleEntry_standby hstandby, if_neg hnot]
    refine ⟨Wheel.table_setEntry_same _ t e _, fun f hf => Wheel.table_setEntry_other _ t _ hf,
      Wheel.table_setEntry_table _ e _ hstandby, ?_⟩
    exact congrArg (fun w => { s with wheel := w }) (Wheel.setEntry_frame s.wheel t e _)
  · rw [hperiod, writeSlotPeriod, if_neg (by omega)]
  · rw [hperiod, writeSlotPeriod, if_pos hshort]

end Sys2Proof.Machine
end

section
/-! CERTIFICATE. The word reads of LOAD and RESOLVE beats (R73, R81, R95; log 4); O32. -/

namespace Sys2Proof.Machine

/-! ### Reads of a record -/

/-- More words read at once are the words read one part after the other (log 4). -/
theorem readRecord_add (s : State) (target : Translation) (pointer : LAddr) (n : Nat) :
    ∀ m k, readRecord s target pointer (m + n) k =
      readRecord s target pointer m k ++
        readRecord s target pointer n (k + (readRecord s target pointer m k).length)
  | 0, k => by simp [readRecord]
  | m + 1, k => by
    have hnext := readRecord_add s target pointer n m (k + 1)
    have hpast (hk : 4 ≤ k) : readRecord s target pointer n k = [] := by cases n <;> simp [readRecord, hk]
    rw [Nat.succ_add]
    by_cases hk : 4 ≤ k
    · simp [readRecord, hk, hpast]
    · cases target with
      | memory page rd wr => simp [readRecord, hk, readThrough, hnext, Nat.add_assoc, Nat.add_comm 1]
      | port p d => cases n <;> simp [readRecord, hk, readThrough]

/-- A record copy is made of four words, after which a LOAD beat reads no more. -/
theorem readRecord_of_recordOf {words : List Word} {r : RecordCopy} (h : recordOf words = some r) (s : State)
    (target : Translation) (pointer : LAddr) (n : Nat) : readRecord s target pointer n words.length = [] := by
  unfold recordOf at h
  split at h
  · cases n <;> simp [readRecord]
  · contradiction

/-- The progress of a LOAD beat that has read some words: the fourth makes the copy (R73). -/
def Progress.withWords (p : Progress) (words : List Word) : Progress :=
  match recordOf words with
  | some r => { p with current := some r }
  | none => p

theorem Progress.withWords_withWords {p : Progress} {words more : List Word}
    (h : (recordOf words).isSome = true → more = []) :
    (p.withWords words).withWords (words ++ more) = p.withWords (words ++ more) := by
  cases hfirst : recordOf words with
  | none => simp [Progress.withWords, hfirst]
  | some r => simp [Progress.withWords, h (by simp [hfirst]), hfirst]

@[simp] theorem Progress.withWords_pointer (p : Progress) (words : List Word) : (p.withWords words).pointer = p.pointer := by
  unfold Progress.withWords
  split <;> rfl

/-- A LOAD beat that reads words (R73). -/
theorem recordLoad_eq {s : State} {b : Beat} {walk : BeatCursor} {words : List Word} (hb : s.beat = some b)
    (hwork : b.work = .load walk words) (n : Nat) :
    recordLoad s n = { s with beat := some { b with
      work := .load walk (words ++ readRecord s walk.target b.progress.pointer n words.length)
      progress := b.progress.withWords
        (words ++ readRecord s walk.target b.progress.pointer n words.length) } } := by
  simp only [recordLoad, hb, hwork]
  rfl

theorem recordLoad_other {s : State} {b : Beat} (hb : s.beat = some b) (hwork : b.work.isLoad = false) (n : Nat) :
    recordLoad s n = s := by
  unfold recordLoad
  rw [hb]
  dsimp only
  split
  · next e => simp [e, BeatWork.isLoad] at hwork
  · rfl

/-- RECORD_LOAD of some words and then of some more is RECORD_LOAD of all of them (log 4). -/
theorem recordLoad_recordLoad {s : State} {b : Beat} (hb : s.beat = some b) (m n : Nat) :
    recordLoad (recordLoad s m) n = recordLoad s (m + n) := by
  cases hwork : b.work with
  | load walk words =>
    rw [recordLoad_eq hb hwork m, recordLoad_eq rfl rfl, recordLoad_eq hb hwork (m + n), readRecord_add]
    generalize hfirst : readRecord s walk.target b.progress.pointer m words.length = first
    have hsame (k : Nat) (beat : Option Beat) : readRecord { s with beat := beat } walk.target b.progress.pointer n k =
        readRecord s walk.target b.progress.pointer n k := by
      induction n generalizing k with
      | zero => rfl
      | succ n ih =>
        simp only [readRecord, ih]
        rfl
    have hdone : (recordOf (words ++ first)).isSome = true →
        readRecord s walk.target b.progress.pointer n (words ++ first).length = [] := fun h => by
      obtain ⟨r, hr⟩ := Option.isSome_iff_exists.mp h
      exact readRecord_of_recordOf hr s _ _ n
    simp only [Progress.withWords_pointer, hsame, Progress.withWords_withWords hdone]
    simp only [List.append_assoc, List.length_append]
  | dispatch => simp only [recordLoad_other hb (by rw [hwork]; rfl)]
  | resolve hop cell => simp only [recordLoad_other hb (by rw [hwork]; rfl)]
  | transfer src dst moved held stop => simp only [recordLoad_other hb (by rw [hwork]; rfl)]
  | finish => simp only [recordLoad_other hb (by rw [hwork]; rfl)]

theorem exec_recordLoad {s : State} (hpin : s.resetPin = false) (words : Fin 4) :
    exec (.recordLoad words) s = .next (recordLoad s (words.val + 1)) :=
  congrArg Host.Outcome.next (unlessReset_run hpin _)

/-! ### The read of a cell -/

theorem Progress.cellAddress_eq (p : Progress) :
    p.cellAddress = if p.resolveTarget = .dst then p.resolvedDestination else p.resolvedSource := by
  unfold Progress.cellAddress
  cases p.resolveTarget <;> rfl

/-- Settles O32, by the number of words read. -/
theorem recordAndCellReadsGoThroughTheBeatsTranslation :
    Obligations.RecordAndCellReadsGoThroughTheBeatsTranslation := by
  intro s b hpin hb
  refine ⟨fun q page rd wr hwork => ?_, fun q page rd wr words hwork hfew => ?_, fun n => ?_, fun q page rd wr hwork => ?_⟩
  case refine_1 =>
    rw [exec_recordLoad hpin, recordLoad_eq hb hwork]
    simp [readRecord, readThrough, Progress.withWords, recordOf, State.wordsOf, RecordCopy.toList]
  case refine_2 =>
    have hone : readRecord s (.memory page rd wr) b.progress.pointer 1 words.length =
        [s.readMem page (b.progress.pointer + BitVec.ofNat 15 words.length).offset] := by
      simp [readRecord, readThrough, Nat.not_le.mpr hfew]
    rw [exec_recordLoad hpin, recordLoad_eq hb hwork, Fin.val_zero, hone]
    rcases words with _ | ⟨x, _ | ⟨y, _ | ⟨z, _ | ⟨v, rest⟩⟩⟩⟩
    · rfl
    · rfl
    · rfl
    · rfl
    · exact absurd hfew (by simp)
  case refine_3 =>
    have hpin' : (recordLoad s (n.val + 1)).resetPin = false := by
      rw [recordLoad_frame]
      exact hpin
    refine ⟨_, exec_recordLoad hpin _, (exec_recordLoad hpin' 0).trans ?_⟩
    rw [exec_recordLoad hpin, Fin.val_zero, recordLoad_recordLoad hb]
    rfl
  case refine_4 =>
    have hexec : exec .cellRead s = .next (cellRead s) := congrArg Host.Outcome.next (unlessReset_run hpin _)
    rw [hexec, cellRead, hb]
    simp only [hwork, readThrough, Progress.cellAddress_eq]

end Sys2Proof.Machine
end

section
/-! CERTIFICATE. The word steps of a TRANSFER beat: the tests in their order and the word moved (R82, R83, R86, R152; log 5,
log 28); O33, O34. -/

namespace Sys2Proof.Machine

/-! ### The tests before a word -/

/-- The tests of a word step are the statement's, in their order (R82). -/
theorem transferTests_eq (s : State) (b : Beat) (r : RecordCopy) (src dst : BeatCursor) (moved : Nat) :
    transferTests s r b.progress b.burst moved src dst = s.stopBefore b r src dst moved := by
  unfold transferTests State.stopBefore
  refine if_congr Iff.rfl rfl (if_congr Iff.rfl rfl (if_congr (Bool.or_eq_true _ _).to_iff rfl ?_))
  refine if_congr ?_ rfl (if_congr ?_ rfl ?_)
  · cases src.target <;> rfl
  · cases dst.target <;> rfl
  · cases src.target with
    | memory page rd wr =>
      cases dst.target with
      | memory page' rd' wr' => rfl
      | port q d => by_cases h : 32 ≤ (s.port q).txFifo.length <;> simp [Config.fifoWords, h]
    | port p d =>
      cases dst.target with
      | memory page' rd' wr' => by_cases h : (s.port p).rxFifo = [] <;> simp [h]
      | port q d' =>
        by_cases h : (s.port p).rxFifo = [] <;> by_cases h' : 32 ≤ (s.port q).txFifo.length <;>
          simp [Config.fifoWords, h, h']

theorem exec_wordStep {s : State} (hpin : s.resetPin = false) (part : WordStepPart) :
    exec (.wordStep part) s = .next (wordStep s part) :=
  congrArg Host.Outcome.next (unlessReset_run hpin _)

/-- A test that holds ends the word steps (R82). -/
theorem wordRead_stops {s : State} {b : Beat} {r : RecordCopy} {src dst : BeatCursor} {moved : Nat} {stop : Stop}
    (hb : s.beat = some b) (hcopy : b.progress.current = some r) (hwork : b.work = .transfer src dst moved none none)
    (hstop : s.stopBefore b r src dst moved = some stop) :
    wordRead s = { s with beat := some { b with work := .transfer src dst moved none (some stop) } } := by
  simp only [wordRead, hb, hwork, hcopy, transferTests_eq, hstop]

/-- With no word read there is none to write. -/
theorem wordWrite_nothing {s : State} {b : Beat} {src dst : BeatCursor} {moved : Nat} {stop : Option Stop}
    (hb : s.beat = some b) (hwork : b.work = .transfer src dst moved none stop) : wordWrite s = s := by
  simp only [wordWrite, hb, hwork]

/-- Settles O33: the tests are the same seven in the same order, and with no word read the write part changes nothing. -/
theorem transferTestsEndTheWordStepsInOrder : Obligations.TransferTestsEndTheWordStepsInOrder := by
  intro s b r src dst moved hpin hb hcopy hwork stop hstop
  have hread := wordRead_stops hb hcopy hwork hstop
  have hwhole : wordStep s .whole = wordRead s := by
    rw [wordStep, hread]
    exact wordWrite_nothing rfl rfl
  rw [exec_wordStep hpin, exec_wordStep hpin, hwhole]
  exact ⟨congrArg _ hread, rfl⟩

/-! ### The word moved -/

/-- None of the tests holds where a word may move (R82). -/
theorem stopBefore_of_wordMayMove {s : State} {b : Beat} {r : RecordCopy} {src dst : BeatCursor} {moved : Nat}
    (h : s.wordMayMove b r src dst moved) : s.stopBefore b r src dst moved = none := by
  obtain ⟨hremaining, hmoved, hsrcPage, hdstPage, hsource, hdestination⟩ := h
  unfold State.stopBefore State.sourceOff State.destinationOff
  rw [if_neg hremaining, if_neg hmoved, hsrcPage, hdstPage]
  cases hsrc : src.target with
  | memory page rd wr =>
    cases hdst : dst.target with
    | memory page' rd' wr' => simp
    | port q d =>
      obtain ⟨hon, hroom⟩ := hdestination q d hdst
      simp [hon, Nat.not_le.mpr hroom]
  | port p d =>
    obtain ⟨hrx, hword⟩ := hsource p d hsrc
    cases hdst : dst.target with
    | memory page' rd' wr' => simp [hrx, hword]
    | port q d' =>
      obtain ⟨hon, hroom⟩ := hdestination q d' hdst
      simp [hrx, hword, hon, Nat.not_le.mpr hroom]

/-- A TRANSFER beat that holds a word it has read (R83). -/
def Beat.holding (b : Beat) (src dst : BeatCursor) (moved : Nat) (h : HeldWord) : Beat :=
  { b with work := .transfer src dst moved (some h) none }

/-- The state with another beat in progress. -/
def State.withBeat (s : State) (b : Beat) : State := { s with beat := some b }

@[simp] theorem State.withBeat_beat (s : State) (b : Beat) : (s.withBeat b).beat = some b := rfl
@[simp] theorem State.withBeat_port (s : State) (b : Beat) (p : PortId) : (s.withBeat b).port p = s.port p := rfl
@[simp] theorem State.withBeat_readMem (s : State) (b : Beat) (page : BitVec 6) (offset : BitVec 8) :
    (s.withBeat b).readMem page offset = s.readMem page offset := rfl

@[simp] theorem State.port_writeMem (s : State) (page : BitVec 6) (offset : BitVec 8) (v : Word) (p : PortId) :
    (s.writeMem page offset v).port p = s.port p := rfl

/-- A port with another receive FIFO. -/
def Port.withRxFifo (x : Port) (fifo : List Word) : Port := { x with rxFifo := fifo }

/-- A port with another transmit FIFO. -/
def Port.withTxFifo (x : Port) (fifo : List Word) : Port := { x with txFifo := fifo }

/-- The two sources of a word (R83). -/
theorem readSource_memory (s : State) (page : BitVec 6) (rd wr : Bool) (position : LAddr) :
    readSource s (.memory page rd wr) position = (s.readMem page position.offset, s) := rfl

theorem readSource_port {s : State} {p : PortId} {w : Word} {rest : List Word} (h : (s.port p).rxFifo = w :: rest)
    (d : Direction) (position : LAddr) :
    readSource s (.port p d) position = (w, s.updPort p (·.withRxFifo rest)) := by
  simp only [readSource, h]
  rfl

/-- The read of a word step leaves memory and the transmit direction of every port (R83). -/
theorem readSource_mem (s : State) (target : Translation) (position : LAddr) :
    (readSource s target position).2.mem = s.mem := by
  rw [readSource_frame]

theorem readSource_txEnable (s : State) (target : Translation) (position : LAddr) (q : PortId) :
    ((readSource s target position).2.port q).txEnable = (s.port q).txEnable := by
  unfold readSource
  split
  · rfl
  · split
    · rfl
    · rw [State.port_updPort]
      split
      · next e => rw [e]
      · rfl

/-- The two destinations of a word (R83). -/
theorem writeDestination_memory (s : State) (page : BitVec 6) (rd wr : Bool) (position : LAddr) (h : HeldWord) :
    writeDestination s (.memory page rd wr) position h = s.writeMem page position.offset h.word := rfl

theorem writeDestination_port {s : State} {q : PortId} (h : (s.port q).txFifo.length < 32) (d : Direction)
    (position : LAddr) (w : Word) :
    writeDestination s (.port q d) position ⟨w, false⟩ =
      s.updPort q (·.withTxFifo ((s.port q).txFifo ++ [w])) := by
  have hroom : pushFifo (s.port q).txFifo w = (s.port q).txFifo ++ [w] := if_neg (Nat.not_le.mpr h)
  simp only [writeDestination, State.updPort, hroom, Bool.false_eq_true, if_false]
  rfl

/-- A TRANSFER beat between words, with none of its tests holding (R82). -/
structure WordMoves (s : State) (b : Beat) (r : RecordCopy) (src dst : BeatCursor) (moved : Nat) : Prop where
  beat : s.beat = some b
  copy : b.progress.current = some r
  work : b.work = .transfer src dst moved none none
  may : s.wordMayMove b r src dst moved

section
variable {s : State} {b : Beat} {r : RecordCopy} {src dst : BeatCursor} {moved : Nat}

theorem WordMoves.remaining (h : WordMoves s b r src dst moved) : b.progress.remaining ≠ 0 := h.may.1

theorem WordMoves.source (h : WordMoves s b r src dst moved) {p : PortId} {d : Direction} (hsrc : src.target = .port p d) :
    (s.port p).rxFifo ≠ [] := by
  obtain ⟨-, -, -, -, hsource, -⟩ := h.may
  exact (hsource p d hsrc).2

theorem WordMoves.destination (h : WordMoves s b r src dst moved) {q : PortId} {d : Direction}
    (hdst : dst.target = .port q d) : (s.port q).txEnable = true ∧ (s.port q).txFifo.length < 32 := by
  obtain ⟨-, -, -, -, -, hdestination⟩ := h.may
  exact hdestination q d hdst

/-- The read of a word step, where none of the tests holds (R83). -/
theorem WordMoves.read (h : WordMoves s b r src dst moved) :
    wordRead s = (readSource s src.target b.progress.sourcePosition).2.withBeat
      (b.holding src dst moved ⟨(readSource s src.target b.progress.sourcePosition).1, false⟩) := by
  simp only [wordRead, h.beat, h.work, h.copy, transferTests_eq, stopBefore_of_wordMayMove h.may]
  rfl

/-- The write of a word step, with its counts, in a beat with words left to move (R83, R86). -/
theorem wordWrite_moves {held : HeldWord} (hb : s.beat = some b) (hcopy : b.progress.current = some r)
    (hwork : b.work = .transfer src dst moved (some held) none) (hremaining : b.progress.remaining ≠ 0) :
    wordWrite s = (writeDestination s dst.target b.progress.destinationPosition held).withBeat
      (b.afterWord r src dst moved) := by
  have hlast : b.progress.remaining - 1 = 0 ↔ b.progress.remaining = 1 := by omega
  simp only [wordWrite, hb, hwork, hcopy, State.withBeat, Beat.afterWord, nextPosition, Config.lastAddress, hlast,
    Bool.and_eq_true, beq_iff_eq, bne_iff_ne]

/-- A word whose destination has been disabled is counted and pushed nowhere (R83; log 28). -/
theorem wordWrite_discards {q : PortId} {d : Direction} {w : Word} (hb : s.beat = some b)
    (hcopy : b.progress.current = some r) (hwork : b.work = .transfer src dst moved (some ⟨w, true⟩) none)
    (hremaining : b.progress.remaining ≠ 0) (hdst : dst.target = .port q d) :
    wordWrite s = s.withBeat (b.afterWord r src dst moved) := by
  rw [wordWrite_moves hb hcopy hwork hremaining, hdst]
  rfl

/-- A whole word step reads the source and writes the destination (R83). -/
theorem WordMoves.whole (h : WordMoves s b r src dst moved) :
    wordStep s .whole = (writeDestination (readSource s src.target b.progress.sourcePosition).2 dst.target
        b.progress.destinationPosition ⟨(readSource s src.target b.progress.sourcePosition).1, false⟩).withBeat
      (b.afterWord r src dst moved) := by
  rw [wordStep, h.read,
    wordWrite_moves (b := b.holding src dst moved _) (State.withBeat_beat _ _) h.copy rfl h.remaining]
  cases dst.target <;> rfl

/-! A whole word step by its source and its destination (R83). -/

theorem WordMoves.whole_memory_memory (h : WordMoves s b r src dst moved) {source page : BitVec 6}
    {rd wr rd' wr' : Bool} (hsrc : src.target = .memory source rd wr) (hdst : dst.target = .memory page rd' wr') :
    wordStep s .whole = (s.writeMem page b.progress.destinationPosition.offset
      (s.readMem source b.progress.sourcePosition.offset)).withBeat (b.afterWord r src dst moved) := by
  rw [h.whole, hsrc, hdst, readSource_memory, writeDestination_memory]

theorem WordMoves.whole_port_memory (h : WordMoves s b r src dst moved) {p : PortId} {d : Direction} {page : BitVec 6}
    {rd wr : Bool} {w : Word} {rest : List Word} (hsrc : src.target = .port p d) (hdst : dst.target = .memory page rd wr)
    (hfifo : (s.port p).rxFifo = w :: rest) :
    wordStep s .whole = ((s.updPort p (·.withRxFifo rest)).writeMem page b.progress.destinationPosition.offset w).withBeat
      (b.afterWord r src dst moved) := by
  rw [h.whole, hsrc, hdst, readSource_port hfifo, writeDestination_memory]

theorem WordMoves.whole_memory_port (h : WordMoves s b r src dst moved) {source : BitVec 6} {rd wr : Bool} {q : PortId}
    {d : Direction} (hsrc : src.target = .memory source rd wr) (hdst : dst.target = .port q d) :
    wordStep s .whole = (s.updPort q (·.withTxFifo ((s.port q).txFifo ++
      [s.readMem source b.progress.sourcePosition.offset]))).withBeat (b.afterWord r src dst moved) := by
  rw [h.whole, hsrc, hdst, readSource_memory, writeDestination_port (h.destination hdst).2]

theorem WordMoves.whole_port_port (h : WordMoves s b r src dst moved) {p q : PortId} {d d' : Direction} {w : Word}
    {rest : List Word} (hsrc : src.target = .port p d) (hdst : dst.target = .port q d')
    (hfifo : (s.port p).rxFifo = w :: rest) :
    wordStep s .whole = ((s.updPort p (·.withRxFifo rest)).updPort q
      (·.withTxFifo ((s.port q).txFifo ++ [w]))).withBeat (b.afterWord r src dst moved) := by
  have htx : ((s.updPort p (·.withRxFifo rest)).port q).txFifo = (s.port q).txFifo := by
    rw [State.port_updPort]
    split
    · next e =>
      rw [e]
      rfl
    · rfl
  rw [h.whole, hsrc, hdst, readSource_port hfifo, writeDestination_port (htx ▸ (h.destination hdst).2), htx]

end

/-! ### A disable between the read and the write -/

theorem onlyLanes_faultWaiters (s : State) (p : PortId) (dir : Direction) (role : Role) :
    OnlyLanes (fun _ => True) s (faultWaiters s p dir role) := by
  refine onlyLanes_foldl (fun t l => ?_) allLanes s fun _ _ => trivial
  split
  · exact onlyLane_asyncFault t l .portOff role
  · exact .refl l t

/-- A disable of the transmit direction that a held word goes to marks the word (R83, R152; log 28). -/
theorem discardHeld_holding {s : State} {b : Beat} {src dst : BeatCursor} {moved : Nat} {h : HeldWord} {q : PortId}
    {d : Direction} (hb : s.beat = some (b.holding src dst moved h)) (hdst : dst.target = .port q d) :
    discardHeld s q = s.withBeat (b.holding src dst moved ⟨h.word, true⟩) := by
  obtain ⟨page, target⟩ := dst
  obtain rfl : target = .port q d := hdst
  simp [discardHeld, hb, Beat.holding, State.withBeat]

/-- The beat in progress, whether a port's transmit direction is enabled, and the RESET pin. -/
def State.transmission (s : State) (q : PortId) : Option Beat × Bool × Bool :=
  (s.beat, (s.port q).txEnable, s.resetPin)

theorem disableRx_transmission (s : State) (q : PortId) : (disableRx s q).transmission q = s.transmission q := by
  have hfault := onlyLanes_faultWaiters (s.updPort q fun x => { x with rxFifo := [], capture := false }) q .rx .src
  rw [State.transmission, disableRx, hfault.beat, State.port_congr hfault.ports, hfault.resetPin, State.port_updPort_same]
  rfl

theorem disableTx_transmission {s : State} {b : Beat} {src dst : BeatCursor} {moved : Nat} {h : HeldWord} {q : PortId}
    {d : Direction} (hb : s.beat = some (b.holding src dst moved h)) (hdst : dst.target = .port q d) :
    (disableTx s q).transmission q =
      (some (b.holding src dst moved ⟨h.word, true⟩), (s.port q).txEnable, s.resetPin) := by
  have hmark := discardHeld_holding (s := s.updPort q fun x => { x with txFifo := [], shiftWord := 0 }) hb hdst
  have hfault := onlyLanes_faultWaiters (discardHeld (s.updPort q fun x => { x with txFifo := [], shiftWord := 0 }) q) q
    .tx .dst
  rw [State.transmission, disableTx, hfault.beat, State.port_congr hfault.ports, hfault.resetPin, hmark,
    State.withBeat_port, State.port_updPort_same]
  rfl

/-- The write of PORT_CONFIG that disables the transmit direction of a held word's destination (R149, R152). -/
theorem writePortConfig_transmission {s : State} {b : Beat} {src dst : BeatCursor} {moved : Nat} {h : HeldWord}
    {q : PortId} {d : Direction} {v : Half} (hb : s.beat = some (b.holding src dst moved h))
    (hdst : dst.target = .port q d) (hon : (s.port q).txEnable = true) (hoff : v.getLsbD 1 = false) :
    (writePortConfig s q v).transmission q = (some (b.holding src dst moved ⟨h.word, true⟩), false, s.resetPin) := by
  have hset : (s.updPort q (·.configured v)).transmission q = (some (b.holding src dst moved h), false, s.resetPin) := by
    rw [State.transmission, State.port_updPort_same, ← hoff, ← hb]
    rfl
  have hdisable {t : State} (ht : t.transmission q = (some (b.holding src dst moved h), false, s.resetPin)) :
      (disableTx t q).transmission q = (some (b.holding src dst moved ⟨h.word, true⟩), false, s.resetPin) := by
    obtain ⟨hbeat, htx, hpin⟩ : t.beat = _ ∧ (t.port q).txEnable = _ ∧ t.resetPin = _ := by
      simpa only [State.transmission, Prod.mk.injEq] using ht
    rw [disableTx_transmission hbeat hdst, htx, hpin]
  have hconfig : writePortConfig s q v =
      if (s.port q).txEnable && !v.getLsbD 1 then
        disableTx (if (s.port q).rxEnable && !v.getLsbD 0 then disableRx (s.updPort q (·.configured v)) q
          else s.updPort q (·.configured v)) q
      else if (s.port q).rxEnable && !v.getLsbD 0 then disableRx (s.updPort q (·.configured v)) q
      else s.updPort q (·.configured v) := rfl
  rw [hconfig, if_pos (by rw [hon, hoff]; rfl)]
  refine hdisable ?_
  split
  · rw [disableRx_transmission, hset]
  · exact hset

theorem exec_portTxDisable {s : State} (hpin : s.resetPin = false) (q : PortId) (v : Half) :
    exec (.portTxDisable q v) s = .next (writePortConfig s q (v &&& 0xFFFD)) :=
  congrArg Host.Outcome.next (unlessReset_run hpin _)

/-- A word read before a disable of its destination is counted at the write and pushed nowhere (R83, R152). -/
theorem WordMoves.disabled {s : State} {b : Beat} {r : RecordCopy} {src dst : BeatCursor} {moved : Nat}
    (h : WordMoves s b r src dst moved) (hpin : (wordRead s).resetPin = false) {q : PortId} {d : Direction}
    (hdst : dst.target = .port q d) (v : Half) :
    Runs (.portTxDisable q v) (wordRead s) fun x =>
      (x.port q).txEnable = false ∧
        exec (.wordStep .write) x = .next { x with beat := some (b.afterWord r src dst moved) } := by
  have hon : ((wordRead s).port q).txEnable = true := by
    rw [h.read, State.withBeat_port, readSource_txEnable]
    exact (h.destination hdst).1
  have hoff := writePortConfig_transmission (v := v &&& 0xFFFD) (h.read ▸ State.withBeat_beat _ _) hdst hon (by simp)
  simp only [State.transmission, Prod.mk.injEq] at hoff
  obtain ⟨hbeat, htx, hkept⟩ := hoff
  refine ⟨_, exec_portTxDisable hpin q v, htx, ?_⟩
  rw [exec_wordStep (hkept.trans hpin), wordStep, wordWrite_discards hbeat h.copy rfl h.remaining hdst]
  rfl

/-- Settles O34: the read and the write of a word step in full, by its source and its destination, and the disable between
them, which marks the word. -/
theorem wordStepMovesOneWord : Obligations.WordStepMovesOneWord := by
  intro s b r src dst moved hpin hcanonical hb hcopy
  refine ⟨fun q d hdst w hwork hremaining => ?_, fun hwork hmay => ?_⟩
  · rw [exec_wordStep hpin, wordStep, wordWrite_discards hb hcopy hwork hremaining hdst]
    rfl
  have hmoves : WordMoves s b r src dst moved := ⟨hb, hcopy, hwork, hmay⟩
  have hpinRead : (wordRead s).resetPin = false := by
    rw [wordRead_frame]
    exact hpin
  have hwhole := exec_wordStep hpin .whole
  refine ⟨⟨_, exec_wordStep hpin .read, (exec_wordStep hpinRead .write).trans hwhole.symm⟩,
    fun q d hdst => ⟨_, exec_wordStep hpin .read, fun p d' hsrc w rest hfifo => ?_, hmoves.disabled hpinRead hdst⟩,
    ⟨_, hwhole, by rw [hmoves.whole]; rfl,
      fun page rd wr hdst => ⟨fun source rd' wr' hsrc => ?_, fun p d hsrc => ?_, fun other offset hother => ?_⟩,
      fun q d hdst => ⟨?_, fun source rd wr hsrc => ?_, fun p d' hsrc w rest hfifo k => ?_⟩, wordStep_frame s .whole⟩⟩
  case refine_1 =>
    rw [wordStep, hmoves.read, hsrc, readSource_port hfifo, State.withBeat_port, State.port_updPort_same]
    rfl
  case refine_2 =>
    rw [hmoves.whole_memory_memory hsrc hdst, State.withBeat_readMem, State.readMem_writeMem_same hcanonical]
    exact ⟨rfl, rfl⟩
  case refine_3 =>
    obtain ⟨w, rest, hfifo⟩ := List.exists_cons_of_ne_nil (hmoves.source hsrc)
    have hcanonical' : (s.updPort p (·.withRxFifo rest)).memoryCanonical := hcanonical
    rw [hmoves.whole_port_memory hsrc hdst hfifo, State.withBeat_readMem, State.readMem_writeMem_same hcanonical',
      State.withBeat_port, State.port_writeMem, State.port_updPort_same, hfifo]
    exact ⟨rfl, rfl, fun k hk => by rw [State.withBeat_port, State.port_writeMem, State.port_updPort_other _ _ hk]⟩
  case refine_4 =>
    rw [hmoves.whole, hdst, writeDestination_memory, State.withBeat_readMem, State.readMem_writeMem_other _ _ hother]
    simp only [State.readMem, readSource_mem]
  case refine_5 =>
    rw [hmoves.whole, hdst]
    exact readSource_mem s _ _
  case refine_6 =>
    rw [hmoves.whole_memory_port hsrc hdst, State.withBeat_port, State.port_updPort_same]
    exact ⟨rfl, fun k hk => by rw [State.withBeat_port, State.port_updPort_other _ _ hk]⟩
  case refine_7 =>
    rw [hmoves.whole_port_port hsrc hdst hfifo, State.withBeat_port, State.port_updPort, State.port_updPort,
      State.port_updPort]
    by_cases hq : k = q <;> by_cases hp : k = p
    · subst hq hp
      simp [Port.withRxFifo, Port.withTxFifo]
    · subst hq
      simp [hp, Port.withTxFifo]
    · subst hp
      simp [hq, Port.withRxFifo]
    · simp [hq, hp]

end Sys2Proof.Machine
end

section
/-! CERTIFICATE. Dispatch of a MOVE (R75, R94, R105), the stops of a TRANSFER beat (R84 to R87, R153) and the retry of a held
entry (R89, R133); O38, O42, O44. -/

namespace Sys2Proof.Machine

/-! ### A lane that goes on -/

/-- A lane that goes on at its beat end enters ACTIVE, checked (R25). -/
theorem leaves_conclude_goOn {s : State} {l : LaneId} {x : Lane} (hx : s.lane l = x) (step : Bool) :
    Leaves l ({ x.counted with portWait := none } : Lane).enterActive 0 s (concludeBeat (s, .goOn) l step) := by
  have hcount := leaves_countBeat hx
  have hwait := hcount.quiet (leaves_updLane hcount.lane fun x => { x with portWait := none })
  exact hwait.quiet (leaves_settle_empty hwait.lane)

theorem conclude_goOn_map (s : State) (l : LaneId) (step : Bool) : (concludeBeat (s, .goOn) l step).map = s.map := rfl

theorem conclude_goOn_window (s : State) (l : LaneId) (step : Bool) :
    (concludeBeat (s, .goOn) l step).window = s.window := rfl

/-! ### Dispatch of a MOVE -/

/-- A transfer that is set up at the end of its beat (R75, R105, R25). -/
theorem leaves_conclude_setUpTransfer {s : State} {l : LaneId} {x : Lane} (hx : s.lane l = x) (r : RecordCopy)
    (source destination : LAddr) (step : Bool) :
    Leaves l (x.counted.transferring r.count source destination) 0 s
      (concludeBeat (setUpTransfer s l r source destination) l step) := by
  have hphase := leaves_updLane hx fun x =>
    { x with
      phase := .transfer
      progress := { x.progress with
        resolvedSource := source, resolvedDestination := destination, remaining := r.count
        sourcePosition := source, destinationPosition := destination } }
  have hsrc := hphase.quiet (leaves_retarget hphase.lane .src source.page)
  have hdst := hsrc.quiet (leaves_retarget hsrc.lane .dst destination.page)
  exact hdst.quiet (leaves_conclude_goOn hdst.lane step)

/-- SRC is retargeted before DST (R75, R105). -/
theorem conclude_setUpTransfer_queue {s : State} {l : LaneId} {x : Lane} (hx : s.lane l = x) (r : RecordCopy)
    (source destination : LAddr) (step : Bool) :
    (concludeBeat (setUpTransfer s l r source destination) l step).map.queue =
      s.map.queue ++ x.src.appended l .src source.page ++ x.dst.appended l .dst destination.page := by
  subst hx
  calc _ = (setUpTransfer s l r source destination).1.map.queue := rfl
    _ = _ := by
      rw [setUpTransfer, retarget_queue, retarget_queue, retarget_lane, State.lane_updLane_same]
      rfl

/-- The beat end that changes one lane, retargets cursors of it and sets no interrupt bit. -/
theorem Leaves.runs {s t : State} {b : Beat} {x : Lane} {queue : List (LaneId × Role)}
    (h : Leaves b.lane x 0 { s with beat := none } t) (hexec : exec .beatEnd s = .next t) (hqueue : t.map.queue = queue) :
    Runs .beatEnd s fun t =>
      t.lane b.lane = x ∧ OtherLanesKept s t b.lane ∧ t.map.entries = s.map.entries ∧ t.map.queue = queue ∧
        t = { s with beat := none, lanes := t.lanes, map := t.map, window := t.window } := by
  obtain ⟨hlane, hothers, hentries, hframe⟩ := h.atQuietEnd
  exact ⟨t, hexec, hlane, hothers, hentries, hqueue, hframe⟩

/-- Settles O38, by the references that are indirect. -/
theorem moveDispatchPreparesTheTransfer : Obligations.MoveDispatchPreparesTheTransfer := by
  intro s b r hends hdispatch hkind
  have hexec := exec_beatEnd hends
  rw [beatResult_dispatches hdispatch] at hexec
  simp only [dispatchRecord, hkind, dispatchMove, refIndirect, refAddress] at hexec
  have htaken := leaves_taken s b
  refine ⟨fun hsrc hdst => ?_, fun hsrc => ?_, fun hsrc hdst => ?_⟩
  · simp only [hsrc, hdst, Bool.false_eq_true, if_false] at hexec
    refine (htaken.quiet (leaves_conclude_setUpTransfer htaken.lane r _ _ b.step)).runs hexec ?_
    rw [conclude_setUpTransfer_queue htaken.lane, State.taken_map, page_address, page_address]
  · simp only [hsrc, if_true] at hexec
    refine (htaken.quiet (leaves_conclude_beginResolution htaken.lane .src _ b.step)).runs hexec ?_
    rw [conclude_beginResolution_queue htaken.lane, State.taken_map, page_address]
  · simp only [hsrc, hdst, Bool.false_eq_true, if_false, if_true] at hexec
    have hfinal := htaken.quiet (leaves_updLane htaken.lane fun x =>
      { x with progress := { x.progress with resolvedSource := r.word1.extractLsb' 0 15 } })
    refine (hfinal.quiet (leaves_conclude_beginResolution hfinal.lane .dst _ b.step)).runs hexec ?_
    rw [conclude_beginResolution_queue hfinal.lane, State.updLane_map, State.taken_map, page_address]

/-! ### The stops of a TRANSFER beat -/

/-- The results of a TRANSFER beat that ended with a stop. -/
theorem beatResult_transfer {s : State} {b : Beat} {r : RecordCopy} {src dst : BeatCursor} {moved : Nat} {stop : Stop}
    (hcopy : b.progress.current = some r) (hwork : b.work = .transfer src dst moved none (some stop)) :
    beatResult (s.taken b) b.lane b.work = transferResult (s.taken b) b.lane r src dst stop := by
  simp [beatResult, hwork, hcopy]

@[simp] theorem State.taken_port (s : State) (b : Beat) (p : PortId) : (s.taken b).port p = s.port p :=
  State.port_congr (leaves_taken s b).ports p

section
variable {s : State} {b : Beat}

/-- A beat end that only faults the beat's lane (R41). -/
theorem faultsAtEnd_of_result {f : FaultRecord} (hload : b.work.isLoad = false) (hsound : s.lookupsSound)
    (hexec : exec .beatEnd s = .next (concludeBeat (s.taken b, .fault f) b.lane b.step)) : FaultsAtEnd s b f := by
  have hmap : (countBeat (s.taken b) b.lane).map = s.map := s.taken_map b
  have hints : (countBeat (s.taken b) b.lane).ints = s.ints := s.taken_ints b
  rw [FaultsAtEnd, hexec, concludeBeat, applyVerdict, enterFaulted_eq (hsound.counted b), setLane_served hload,
    (leaves_served s b).lane, hmap, hints]

/-- A beat end after which the lane only goes on (R25). -/
theorem goesOn_of_result (hload : b.work.isLoad = false)
    (hexec : exec .beatEnd s = .next (concludeBeat (s.taken b, .goOn) b.lane b.step)) :
    exec .beatEnd s = .next { s.setLane b.lane
      ({ (s.lane b.lane).served b with portWait := none } : Lane).enterActive with beat := none } := by
  rw [hexec, concludeBeat, applyVerdict_goOn, setLane_served hload, (leaves_served s b).lane]

/-- A beat end after which the lane only waits for a port (R84, R23). -/
theorem waitsOnPort_of_result {w : PortWait} (hload : b.work.isLoad = false)
    (hexec : exec .beatEnd s = .next (concludeBeat (s.taken b, .run ⟨false, true, false⟩ (some w)) b.lane b.step)) :
    exec .beatEnd s = .next { s.setLane b.lane
      { (s.lane b.lane).served b with
        portWait := some w, state := .blocked
        reasons := ⟨!((s.lane b.lane).served b).neededMapped, true, false⟩ } with beat := none } := by
  rw [hexec, concludeBeat, applyVerdict, settle_eq, State.updLane, State.setLane_setLane, State.lane_setLane_same,
    setLane_served hload, (leaves_served s b).lane]
  rfl

end

/-! The retargets of a stop at a page crossing (R85). -/

theorem leaves_retarget_if {s : State} {l : LaneId} {x : Lane} (hx : s.lane l = x) (c : Bool) (r : Role)
    (page : BitVec 7) :
    Leaves l (x.setCursor r (if c then (x.cursor r).retargeted page else x.cursor r)) 0 s
      (if c then retarget s l r page else s) := by
  cases c with
  | true => exact leaves_retarget hx r page
  | false =>
    simp only [Bool.false_eq_true, if_false, Lane.setCursor_self, ← hx]
    exact .refl l s

theorem retarget_if_queue (s : State) (l : LaneId) (c : Bool) (r : Role) (page : BitVec 7) :
    (if c then retarget s l r page else s).map.queue =
      s.map.queue ++ if c then ((s.lane l).cursor r).appended l r page else [] := by
  cases c with
  | true => exact retarget_queue s l r page
  | false => simp

theorem retarget_if_window (s : State) (l : LaneId) (c : Bool) (r : Role) (page : BitVec 7) :
    (if c then retarget s l r page else s).window = s.window := by
  cases c <;> simp

/-- A lane whose crossed cursors have been retargeted, SRC before DST (R85). -/
def Lane.crossing (x : Lane) (r : RecordCopy) (src dst : BeatCursor) : Lane :=
  { x with
    src := if crossed src r.srcFixed x.progress.sourcePosition then x.src.retargeted x.progress.sourcePosition.page
      else x.src
    dst := if crossed dst r.dstFixed x.progress.destinationPosition then
        x.dst.retargeted x.progress.destinationPosition.page
      else x.dst }

theorem leaves_crossPages {s : State} {l : LaneId} {x : Lane} (hx : s.lane l = x) (r : RecordCopy)
    (src dst : BeatCursor) : Leaves l (x.crossing r src dst) 0 s (crossPages s l r src dst) := by
  subst hx
  have hsrc := leaves_retarget_if (s := s) (l := l) rfl
    (crossed src r.srcFixed (s.lane l).progress.sourcePosition) .src (s.lane l).progress.sourcePosition.page
  exact hsrc.quiet (leaves_retarget_if hsrc.lane
    (crossed dst r.dstFixed (s.lane l).progress.destinationPosition) .dst (s.lane l).progress.destinationPosition.page)

theorem crossPages_queue {s : State} {l : LaneId} {x : Lane} (hx : s.lane l = x) (r : RecordCopy)
    (src dst : BeatCursor) :
    (crossPages s l r src dst).map.queue = s.map.queue ++
      (if crossed src r.srcFixed x.progress.sourcePosition then
        x.src.appended l .src x.progress.sourcePosition.page else []) ++
      (if crossed dst r.dstFixed x.progress.destinationPosition then
        x.dst.appended l .dst x.progress.destinationPosition.page else []) := by
  subst hx
  have hsrc := leaves_retarget_if (s := s) (l := l) rfl
    (crossed src r.srcFixed (s.lane l).progress.sourcePosition) .src (s.lane l).progress.sourcePosition.page
  simp only [crossPages, retarget_if_queue, hsrc.lane]
  rfl

theorem crossPages_window (s : State) (l : LaneId) (r : RecordCopy) (src dst : BeatCursor) :
    (crossPages s l r src dst).window = s.window := by
  simp only [crossPages, retarget_if_window]

theorem State.taken_window_of_not_load {s : State} {b : Beat} (h : b.work.isLoad = false) :
    (s.taken b).window = s.window := by
  rw [State.taken_eq, h]
  simp [Window.indexAfter]

/-- Settles O42, stop by stop. -/
theorem transferStopsLeaveTheMoveUnfinished : Obligations.TransferStopsLeaveTheMoveUnfinished := by
  intro s b r hends hcopy hsound src dst moved stop hwork
  have hexec := exec_beatEnd hends
  rw [beatResult_transfer hcopy hwork] at hexec
  have hload : b.work.isLoad = false := by rw [hwork]; rfl
  refine ⟨?_, ?_, ?_, ?_, ?_, ?_⟩
  case refine_1 =>
    rintro rfl
    exact goesOn_of_result hload hexec
  case refine_2 =>
    rintro rfl
    simp only [transferResult] at hexec
    have htaken := leaves_taken s b
    have hcross := htaken.quiet (leaves_crossPages htaken.lane r src dst)
    have hdone := hcross.quiet (leaves_conclude_goOn hcross.lane b.step)
    obtain ⟨hlane, hothers, hentries, hframe⟩ := hdone.atQuietEnd
    refine ⟨_, hexec, hlane, hothers, hentries, ?_, ?_⟩
    · rw [conclude_goOn_map, crossPages_queue htaken.lane, State.taken_map]
    · rw [conclude_goOn_window, crossPages_window, State.taken_window_of_not_load hload] at hframe
      exact hframe
  case refine_3 =>
    rintro role rfl
    simp only [transferResult, State.taken_lane] at hexec
    exact faultsAtEnd_of_result hload hsound hexec
  case refine_4 =>
    rintro role rfl
    simp only [transferResult, State.taken_lane] at hexec
    exact faultsAtEnd_of_result hload hsound hexec
  case refine_5 =>
    rintro p rfl
    simp only [transferResult, State.taken_lane, State.taken_port] at hexec
    refine ⟨fun hoff => ?_, fun hon => ?_⟩
    · simp only [hoff, Bool.not_false, if_true] at hexec
      exact faultsAtEnd_of_result hload hsound hexec
    · simp only [hon, Bool.not_true, Bool.false_eq_true, if_false] at hexec
      by_cases hempty : (s.port p).rxFifo = []
      · rw [if_pos hempty] at hexec ⊢
        exact waitsOnPort_of_result hload hexec
      · rw [if_neg hempty] at hexec ⊢
        exact goesOn_of_result hload hexec
  case refine_6 =>
    rintro q rfl
    simp only [transferResult, State.taken_lane, State.taken_port, Config.fifoWords] at hexec
    refine ⟨fun hoff => ?_, fun hon => ?_⟩
    · simp only [hoff, Bool.not_false, if_true] at hexec
      exact faultsAtEnd_of_result hload hsound hexec
    · simp only [hon, Bool.not_true, Bool.false_eq_true, if_false] at hexec
      by_cases hfull : 32 ≤ (s.port q).txFifo.length
      · rw [if_pos hfull] at hexec ⊢
        exact waitsOnPort_of_result hload hexec
      · rw [if_neg hfull] at hexec ⊢
        exact goesOn_of_result hload hexec

/-! ### The retry of a held entry -/

/-- Settles O44, by whether the queue has room and by the kind of the record. -/
theorem finishBeatsRetryTheHeldEntry : Obligations.FinishBeatsRetryTheHeldEntry := by
  intro s b r hends hcopy hwork hphase hsound kind tag hheld
  have hexec := exec_beatEnd hends
  rw [beatResult_finish hcopy hwork hheld] at hexec
  simp only [finishResult] at hexec
  refine ⟨fun hfull => ?_, fun hroom hkind => ?_⟩
  · rw [push_full (by rwa [State.taken_queue]),
      conclude_onQueue (by rwa [State.taken_lane]) (by rwa [State.taken_lane])] at hexec
    simp only [State.taken_lane, taken_setLane_of_not_load (show b.work.isLoad = false by rw [hwork]; rfl)] at hexec
    exact hexec
  · rw [push_eq (by rwa [State.taken_queue])] at hexec
    have hpushed := leaves_taken_pushed s b kind tag
    have hpost := hpushed.quiet (leaves_updLane hpushed.lane fun x => { x with pendingPost := none })
    have hadvance := hpost.trans (leaves_conclude_completeAdvance hpost.lane (hsound.tidy b.lane) b.step)
    have hcount := hpost.quiet (leaves_countBeat hpost.lane)
    have hidle := hcount.quiet (leaves_enterIdleAtStop hcount.lane (hsound.tidy b.lane))
    rcases hkind with hkind | hkind | hkind <;> simp only [hkind] at hexec
    · obtain ⟨hsignals, hqueue, hlane, hothers, hentries, hints, hframe⟩ := hidle.atBeatEnd (g := s.signals)
      rw [hsignals] at hframe
      rw [if_pos hkind, if_pos hkind]
      exact ⟨_, hexec, hqueue, hints.trans (by simp), hlane, hothers, hentries, hframe⟩
    all_goals
      obtain ⟨hsignals, hqueue, hlane, hothers, hentries, hints, hframe⟩ := hadvance.atBeatEnd (g := s.signals)
      rw [hsignals] at hframe
      simp only [hkind, Option.some.injEq, reduceCtorEq, if_false]
      exact ⟨_, hexec, hqueue, hints, hlane, hothers, hentries, hframe⟩

end Sys2Proof.Machine
end

section
/-! SUPPORT. The counters of beats served: nothing among the results of a beat, and no request taken after them, changes the
counter of a lane (R45, R72). A condition of `KeptByResults` cannot speak of the counters, since its updates may change them;
so they are followed through the results here. -/

namespace Sys2Proof.Machine

/-- The counters of beats served, by lane (R45). -/
def State.beatCounts (s : State) (l : LaneId) : BitVec 32 := (s.lane l).beats

theorem State.beatCounts_congr {s t : State} (h : t.lanes = s.lanes) : t.beatCounts = s.beatCounts :=
  funext fun l => congrArg Lane.beats (State.lane_congr h l)

@[simp] theorem Lane.setCursor_beats (x : Lane) (r : Role) (c : Cursor) : (x.setCursor r c).beats = x.beats := by
  cases r <;> rfl

section
variable (s : State) (l : LaneId)

/-! ### The operations on lanes and cursors -/

@[simp] theorem State.updLane_beatCounts {f : Lane → Lane} (hf : ∀ x, (f x).beats = x.beats) :
    (s.updLane l f).beatCounts = s.beatCounts := by
  funext k
  rw [State.beatCounts, State.lane_updLane]
  split
  · next e => rw [hf, e]; rfl
  · rfl

@[simp] theorem State.setInt_beatCounts (b : IntBit) : (s.setInt b).beatCounts = s.beatCounts := rfl

@[simp] theorem State.markStale_beatCounts : s.markStale.beatCounts = s.beatCounts := rfl

@[simp] theorem State.abandonLookup_beatCounts : s.abandonLookup.beatCounts = s.beatCounts := rfl

@[simp] theorem State.enqueue_beatCounts (r : Role) (page : BitVec 7) : (s.enqueue l r page).beatCounts = s.beatCounts :=
  s.updLane_beatCounts l fun x => x.setCursor_beats r ⟨page, .pending⟩

@[simp] theorem retarget_beatCounts (r : Role) (page : BitVec 7) : (retarget s l r page).beatCounts = s.beatCounts := by
  unfold retarget
  dsimp only
  split <;> try split
  all_goals simp

@[simp] theorem release_beatCounts (r : Role) : (release s l r).beatCounts = s.beatCounts := by
  have hunset : (s.updLane l fun x => x.setCursor r .unset).beatCounts = s.beatCounts := by simp
  unfold release
  dsimp only
  split
  · rfl
  · exact hunset
  · exact hunset
  · exact hunset

@[simp] theorem releaseAll_beatCounts : (releaseAll s l).beatCounts = s.beatCounts := by
  simp [releaseAll, allRoles]

@[simp] theorem dropCopy_beatCounts : (dropCopy s l).beatCounts = s.beatCounts := by
  funext k
  by_cases e : k = l
  · rw [e, State.beatCounts, (leaves_dropCopy rfl).lane]
    rfl
  · rw [State.beatCounts, (onlyLane_dropCopy s l).others k e]
    rfl

@[simp] theorem enterFaulted_beatCounts (f : FaultRecord) : (enterFaulted s l f).beatCounts = s.beatCounts := by
  simp [enterFaulted]

@[simp] theorem enterHalted_beatCounts (reason : HaltReason) (resume : Resume) :
    (enterHalted s l reason resume).beatCounts = s.beatCounts := by
  simp [enterHalted]

@[simp] theorem haltNow_beatCounts : (haltNow s l).beatCounts = s.beatCounts := by
  unfold haltNow
  split <;> simp

@[simp] theorem clearLane_beatCounts (into : LaneState) (config : LaneConfig) :
    (clearLane s l into config).beatCounts = s.beatCounts := by
  simp [clearLane]

/-! ### Verdicts, wakes and signals -/

@[simp] theorem applyVerdict_beatCounts (step : Bool) (v : Verdict) :
    (applyVerdict s l step v).beatCounts = s.beatCounts := by
  cases v with
  | completed => cases step <;> simp [applyVerdict, settle]
  | _ => simp [applyVerdict, settle, enterIdleAtStop]

@[simp] theorem completeAdvance_beatCounts : (completeAdvance s l).1.beatCounts = s.beatCounts := by
  unfold completeAdvance
  dsimp only
  split <;> simp

@[simp] theorem completeWait_beatCounts : (completeWait s l).beatCounts = s.beatCounts := by
  simp [completeWait]

@[simp] theorem setSignal_beatCounts (n : SignalId) : (setSignal s n).beatCounts = s.beatCounts := by
  rcases setSignal_eq s n with e | ⟨signals, e⟩ <;> rw [e]
  refine List.foldlRecOn (motive := fun t : State => t.beatCounts = s.beatCounts) _ _ rfl fun t ht k _ => ?_
  rw [completeWait_beatCounts, ht]

@[simp] theorem setSignals_beatCounts (mask : Half) : (setSignals s mask).beatCounts = s.beatCounts := by
  refine List.foldlRecOn (motive := fun t : State => t.beatCounts = s.beatCounts) _ _ rfl fun t ht n _ => ?_
  split
  · rw [setSignal_beatCounts, ht]
  · exact ht

@[simp] theorem State.pushed_beatCounts (kind : EntryKind) (tag : Half) : (s.pushed l kind tag).beatCounts = s.beatCounts :=
  rfl

/-! ### The results -/

@[simp] theorem setUpTransfer_beatCounts (r : RecordCopy) (source destination : LAddr) :
    (setUpTransfer s l r source destination).1.beatCounts = s.beatCounts := by
  simp [setUpTransfer]

@[simp] theorem beginResolution_beatCounts (target : ResolveTarget) (cell : LAddr) :
    (beginResolution s l target cell).1.beatCounts = s.beatCounts := by
  simp [beginResolution]

@[simp] theorem endResolution_beatCounts : (endResolution s l).beatCounts = s.beatCounts := by
  simp [endResolution]

@[simp] theorem takeLink_beatCounts (target : LAddr) : (takeLink s l target).1.beatCounts = s.beatCounts := by
  simp [takeLink]

@[simp] theorem takePendingPost_beatCounts (kind : EntryKind) (tag : Half) :
    (takePendingPost s l kind tag).1.beatCounts = s.beatCounts := by
  simp [takePendingPost]

theorem actLink_beatCounts (r : RecordCopy) (target : LAddr) (hops : Nat) {finish : State → State}
    (hfinish : (finish s).beatCounts = s.beatCounts) : (actLink s l r target hops finish).1.beatCounts = s.beatCounts := by
  unfold actLink
  dsimp only
  split
  · rfl
  · simp [hfinish]
  · split <;> simp [hfinish]

theorem satisfyWait_beatCounts {mask : Half} {consume : Bool} {t : State} (h : satisfyWait s mask consume = some t) :
    t.beatCounts = s.beatCounts := by
  unfold satisfyWait at h
  split at h
  · obtain rfl := Option.some.inj h
    split <;> rfl
  · contradiction

theorem dispatchRecord_beatCounts (r : RecordCopy) : (dispatchRecord s l r).1.beatCounts = s.beatCounts := by
  unfold dispatchRecord
  split
  · unfold dispatchMove
    dsimp only
    split <;> try split
    all_goals simp
  · unfold dispatchLink
    split
    · simp
    · exact actLink_beatCounts s l r _ _ rfl
  · unfold dispatchPost
    rcases push_cases s l .post r.tag with e | e <;> simp [e]
  · unfold dispatchWait
    split
    · next ht => rw [completeAdvance_beatCounts, satisfyWait_beatCounts s ht]
    · simp
  · simp [dispatchRaise]
  · unfold dispatchStop
    split
    · rcases push_cases s l .stop r.tag with e | e <;> simp [e]
    · rfl
  · rfl

theorem resolveResult_beatCounts (r : RecordCopy) (cell : Word) :
    (resolveResult s l r cell).1.beatCounts = s.beatCounts := by
  unfold resolveResult
  dsimp only
  split
  · rfl
  · split
    · split <;> simp
    · split
      · split <;> simp
      · simp
      · split
        · exact actLink_beatCounts s l r _ _ (by simp)
        · rfl

theorem completeMove_beatCounts (r : RecordCopy) : (completeMove s l r).1.beatCounts = s.beatCounts := by
  unfold completeMove
  dsimp only
  split <;> simp

theorem transferResult_beatCounts (r : RecordCopy) (src dst : BeatCursor) (stop : Stop) :
    (transferResult s l r src dst stop).1.beatCounts = s.beatCounts := by
  unfold transferResult
  dsimp only
  cases stop with
  | finish =>
    dsimp only
    unfold finishMove
    split
    · rcases push_cases s l .moveDone r.tag with e | e <;> simp [e, completeMove_beatCounts]
    · exact completeMove_beatCounts s l r
  | crossing =>
    dsimp only
    unfold crossPages
    dsimp only
    split <;> split <;> simp
  | portEmpty q =>
    dsimp only
    split <;> try split
    all_goals rfl
  | portFull q =>
    dsimp only
    split <;> try split
    all_goals rfl
  | _ => rfl

theorem finishResult_beatCounts (r : RecordCopy) (held : PendingPost) :
    (finishResult s l r held).1.beatCounts = s.beatCounts := by
  unfold finishResult
  rcases push_cases s l held.kind held.tag with e | e
  · rw [e]
    dsimp only
    split <;> simp [completeMove_beatCounts]
  · rw [e]

/-- The results of a beat change no counter of beats served (R72). -/
theorem beatResult_beatCounts (work : BeatWork) : (beatResult s l work).1.beatCounts = s.beatCounts := by
  unfold beatResult
  split
  · unfold loadResult
    dsimp only
    split
    · rfl
    · split
      · simp
      · exact dispatchRecord_beatCounts s l _
  · exact dispatchRecord_beatCounts s l _
  · exact resolveResult_beatCounts s l _ _
  · exact transferResult_beatCounts s l _ _ _ _
  · split
    · exact finishResult_beatCounts s l _ _
    · rfl
  · rfl

/-- A deferred request changes no counter of beats served (R34). -/
theorem takeDeferred_beatCounts (held : Option Deferred) (step : Bool) (v : Verdict) :
    (takeDeferred s l held step v).beatCounts = s.beatCounts := by
  unfold takeDeferred
  split <;> try split
  all_goals simp

end

end Sys2Proof.Machine
end

section
/-! CERTIFICATE. Every beat end ends the beat, counts it and empties the deferred slot, and touches no memory word and no port
(R34, R45, R70, R72); O35. -/

namespace Sys2Proof.Machine

/-! ### What the results of a beat leave as it is -/

/-- What neither the results of a beat nor the request taken after them change (R72). -/
structure BeatFrame (s t : State) : Prop where
  beat : t.beat = s.beat
  wheel : t.wheel = s.wheel
  entries : t.map.entries = s.map.entries
  enable : t.ints.enable = s.ints.enable
  ports : t.ports = s.ports
  mem : t.mem = s.mem
  window : t.window = { s.window with recordIndex := t.window.recordIndex }
  clearing : t.clearing = s.clearing
  resetPin : t.resetPin = s.resetPin
  pending : t.pending = s.pending

theorem BeatFrame.trans {s t u : State} (h : BeatFrame s t) (g : BeatFrame t u) : BeatFrame s u where
  beat := g.beat.trans h.beat
  wheel := g.wheel.trans h.wheel
  entries := g.entries.trans h.entries
  enable := g.enable.trans h.enable
  ports := g.ports.trans h.ports
  mem := g.mem.trans h.mem
  window := by rw [g.window, h.window]
  clearing := g.clearing.trans h.clearing
  resetPin := g.resetPin.trans h.resetPin
  pending := g.pending.trans h.pending

theorem OnlyLanes.beatFrame {p : LaneId → Prop} {s t : State} (h : OnlyLanes p s t) : BeatFrame s t :=
  ⟨h.beat, h.wheel, h.entries, h.enable, h.ports, h.mem, h.window, h.clearing, h.resetPin, h.pending⟩

theorem OnlyLane.beatFrame {l : LaneId} {s t : State} (h : OnlyLane l s t) : BeatFrame s t :=
  (h.toLanes (p := (· = l)) rfl).beatFrame

theorem keptByResults_beatFrame (l : LaneId) (s : State) : KeptByResults l (BeatFrame s) where
  updLane h _ := h.trans (onlyLane_updLane l _ _).beatFrame
  retarget r page h := h.trans (onlyLane_retarget _ l r page).beatFrame
  release r h := h.trans (onlyLane_release _ l r).beatFrame
  dropCopy h := h.trans (onlyLane_dropCopy _ l).beatFrame
  pushed _ _ h := ⟨h.beat, h.wheel, h.entries, h.enable, h.ports, h.mem, h.window, h.clearing, h.resetPin, h.pending⟩
  setSignal n h := h.trans (onlyLanes_setSignal _ n).beatFrame
  clearSignal _ h := ⟨h.beat, h.wheel, h.entries, h.enable, h.ports, h.mem, h.window, h.clearing, h.resetPin, h.pending⟩

/-! ### The deferred slot -/

theorem enterFaulted_deferred (s : State) (l : LaneId) (f : FaultRecord) :
    ((enterFaulted s l f).lane l).deferred = none := by
  rw [enterFaulted, State.lane_setInt, State.lane_updLane_same]

/-- A verdict puts nothing into the deferred slot. -/
theorem applyVerdict_deferred {s : State} {l : LaneId} (h : (s.lane l).deferred = none) (step : Bool) (v : Verdict) :
    ((applyVerdict s l step v).lane l).deferred = none := by
  cases v with
  | run reasons portWait => simpa [applyVerdict, settle] using h
  | completed => cases step <;> simpa [applyVerdict, settle, enterHalted] using h
  | waiting wait => simpa [applyVerdict] using h
  | breakHalt => simpa [applyVerdict, enterHalted] using h
  | idle =>
    have hcore := ((sameCores_dropCopy s l).trans (sameCores_releaseAll (dropCopy s l) l)) l
    have hkept : ((releaseAll (dropCopy s l) l).lane l).deferred = (s.lane l).deferred :=
      (congrArg Lane.deferred hcore : (Lane.core _).deferred = (Lane.core _).deferred)
    simpa [applyVerdict, enterIdleAtStop, hkept] using h
  | fault f => exact enterFaulted_deferred s l f

theorem haltNow_deferred {s : State} {l : LaneId} (h : (s.lane l).deferred = none) :
    ((haltNow s l).lane l).deferred = none := by
  unfold haltNow
  split <;> simpa [enterHalted] using h

/-- A deferred request that has been taken leaves the slot empty (R34). -/
theorem takeDeferred_deferred {s : State} {l : LaneId} (h : (s.lane l).deferred = none) (held : Option Deferred)
    (step : Bool) (v : Verdict) : ((takeDeferred s l held step v).lane l).deferred = none := by
  unfold takeDeferred
  split
  · exact applyVerdict_deferred h step v
  · rw [clearLane, State.lane_updLane_same]
  · exact haltNow_deferred (applyVerdict_deferred h step v)
  · split
    · exact applyVerdict_deferred h step _
    · exact applyVerdict_deferred h step _
    · exact enterFaulted_deferred s l _

/-- Settles O35: the results, the count and the request taken each keep what the statement names, and only the count touches
the counter. -/
theorem everyBeatEndCountsTheBeatAndChangesNoWord : Obligations.EveryBeatEndCountsTheBeatAndChangesNoWord := by
  intro s b hpin hb
  refine ⟨fun hleft => ?_, fun hover => ⟨_, exec_beatEnd_over hpin hb hover, ?_⟩⟩
  · have hexec : exec .beatEnd s = .next (beatEnd s) := congrArg Host.Outcome.next (unlessReset_run hpin _)
    rw [hexec]
    simp [beatEnd, hb, hleft]
  · have hcount := leaves_countBeat (s := (s.results b).1) (l := b.lane) rfl
    have htaken : BeatFrame { s with beat := none } (s.taken b) := (leaves_taken s b).beatFrame
    have hresults := ((keptByResults_beatFrame b.lane _).beatResult htaken b.work).state
    have hdone := (hresults.trans hcount.beatFrame).trans
      (onlyLane_takeDeferred (s.countedResults b) b.lane (s.lane b.lane).deferred b.step (s.results b).2).beatFrame
    have hbeats : ((s.countedResults b).lane b.lane).beats = (s.lane b.lane).beats + 1 := by
      have hsame := congrFun (beatResult_beatCounts (s.taken b) b.lane b.work) b.lane
      rw [State.beatCounts, State.beatCounts, State.taken_lane] at hsame
      rw [State.countedResults, hcount.lane]
      exact congrArg (· + 1) hsame
    have hempty : ((s.countedResults b).lane b.lane).deferred = none := by
      rw [State.countedResults, hcount.lane]
      rfl
    exact ⟨hdone.beat, (congrFun (takeDeferred_beatCounts _ b.lane _ _ _) b.lane).trans hbeats,
      takeDeferred_deferred hempty _ _ _, hdone.mem, hdone.ports, hdone.wheel, hdone.entries, hdone.enable,
      hdone.clearing, hdone.resetPin, hdone.pending, hdone.window⟩

end Sys2Proof.Machine
end

section
/-! CERTIFICATE. The end of a RESOLVE beat (R95 to R99): the cell it has read leads on, ends its reference or faults,
and the target of a LINK's chain is acted on by the repeat logic (R8, R97); O45, O46. -/

namespace Sys2Proof.Machine

/-! ### The results of a RESOLVE beat, cell by cell -/

theorem beatResult_resolve {s : State} {b : Beat} {r : RecordCopy} {hop : BeatCursor} {cell : Word}
    (hcopy : b.progress.current = some r) (hwork : b.work = .resolve hop (some cell)) :
    beatResult (s.taken b) b.lane b.work = resolveResult (s.taken b) b.lane r cell := by
  simp [beatResult, hwork, hcopy]

/-- The fault of a RESOLVE beat at the cell it has read (R95, R98). -/
def Progress.cellFault (p : Progress) (cause : FaultCause) : FaultRecord :=
  ⟨cause, p.pointer, p.addressOf .hop, .hop, p.hopCount⟩

/-- The progress of a lane whose cell address becomes another (R94, R95). -/
def Progress.atCell (p : Progress) (cell : LAddr) : Progress :=
  match p.resolveTarget with
  | .dst => { p with resolvedDestination := cell }
  | _ => { p with resolvedSource := cell }

theorem Progress.atCell_eq (p : Progress) (cell : LAddr) :
    p.atCell cell =
      if p.resolveTarget = .dst then { p with resolvedDestination := cell } else { p with resolvedSource := cell } := by
  unfold Progress.atCell
  split
  · next e => exact (if_pos e).symm
  · next e => exact (if_neg e).symm

theorem Progress.addressOf_hop (p : Progress) :
    p.addressOf .hop = if p.resolveTarget = .dst then p.resolvedDestination else p.resolvedSource := by
  unfold Progress.addressOf Progress.cellAddress
  cases p.resolveTarget <;> rfl

/-- The source of a MOVE once the chain of its last indirect reference has ended at an address: the address, or, if that
reference is the destination, what has been resolved before (R96). -/
def Progress.sourceAfter (p : Progress) (address : LAddr) : LAddr :=
  if p.resolveTarget = .dst then p.resolvedSource else address

/-- The destination of a MOVE there: the address, or, if the last indirect reference is the source, the direct one of
the record (R96). -/
def Progress.destinationAfter (p : Progress) (r : RecordCopy) (address : LAddr) : LAddr :=
  if p.resolveTarget = .dst then address else r.word2.extractLsb' 0 15

/-- The state once a LINK's chain has ended at its target (R97). -/
def State.chainEnded (u : State) (l : LaneId) (target : LAddr) : State :=
  endResolution (u.updLane l fun x => { x with progress := { x.progress with resolvedSource := target } }) l

theorem refReservedSet_false {w : Word} (h : w.extractLsb' 15 16 = 0) : refReservedSet w = false := by
  simp [refReservedSet, h]

theorem refReservedSet_true {w : Word} (h : w.extractLsb' 15 16 ≠ 0) : refReservedSet w = true := bne_iff_ne.mpr h

theorem isAligned4_address (w : Word) : isAligned4 (refAddress w) = decide (w.extractLsb' 0 2 = 0) := by
  have hbits : (w.extractLsb' 0 15).extractLsb' 0 2 = w.extractLsb' 0 2 := by
    ext i hi
    simp
  rw [isAligned4, refAddress, hbits]
  rfl

section
variable {u : State} {l : LaneId} {r : RecordCopy} {cell : Word}

theorem resolveResult_reserved (h : refReservedSet cell = true) :
    resolveResult u l r cell = (u, .fault ((u.lane l).progress.cellFault .badField)) := by
  simp only [resolveResult, h, if_true]
  rfl

theorem resolveResult_tooDeep (hzero : refReservedSet cell = false) (hindirect : refIndirect cell = true)
    (hdeep : 7 ≤ (u.lane l).progress.hopCount) :
    resolveResult u l r cell = (u, .fault ((u.lane l).progress.cellFault .chainDepth)) := by
  simp only [resolveResult, hzero, hindirect, hdeep, Bool.false_eq_true, if_false, if_true]
  rfl

/-- An indirect cell within the depth leads to the next cell (R95). -/
theorem resolveResult_nextCell (hzero : refReservedSet cell = false) (hindirect : refIndirect cell = true)
    (hdepth : (u.lane l).progress.hopCount < 7) :
    resolveResult u l r cell =
      (retarget (u.updLane l fun x => { x with progress := x.progress.atCell (refAddress cell) }) l .hop
        (refAddress cell).page, .goOn) := by
  simp only [resolveResult, hzero, hindirect, Nat.not_le.mpr hdepth, Bool.false_eq_true, if_false, if_true]
  rfl

/-- The last cell of a source leads to the first cell of an indirect destination (R96). -/
theorem resolveResult_nextReference (hzero : refReservedSet cell = false) (hdirect : refIndirect cell = false)
    (htarget : (u.lane l).progress.resolveTarget = .src) (hdst : refIndirect r.word2 = true) :
    resolveResult u l r cell =
      beginResolution
        (u.updLane l fun x => { x with progress := { x.progress with resolvedSource := refAddress cell } }) l
        .dst (refAddress r.word2) := by
  simp [resolveResult, hzero, hdirect, htarget, hdst]

/-- The last cell of the last indirect reference of a MOVE sets up the transfer (R96). -/
theorem resolveResult_transfer (hzero : refReservedSet cell = false) (hdirect : refIndirect cell = false)
    (htarget : (u.lane l).progress.resolveTarget = .dst ∨
      ((u.lane l).progress.resolveTarget = .src ∧ refIndirect r.word2 = false)) :
    resolveResult u l r cell =
      setUpTransfer (endResolution u l) l r ((u.lane l).progress.sourceAfter (refAddress cell))
        ((u.lane l).progress.destinationAfter r (refAddress cell)) := by
  rcases htarget with htarget | ⟨htarget, hdst⟩
  · simp [resolveResult, hzero, hdirect, htarget, Progress.sourceAfter, Progress.destinationAfter]
  · simp [resolveResult, hzero, hdirect, htarget, hdst, Progress.sourceAfter, Progress.destinationAfter, refAddress]

theorem resolveResult_misaligned (hzero : refReservedSet cell = false) (hdirect : refIndirect cell = false)
    (htarget : (u.lane l).progress.resolveTarget = .link) (h : isAligned4 (refAddress cell) = false) :
    resolveResult u l r cell = (u, .fault ⟨.misaligned, (u.lane l).progress.pointer, refAddress cell, .hop,
      (u.lane l).progress.hopCount⟩) := by
  simp [resolveResult, hzero, hdirect, htarget, h]

/-- The last cell of a LINK's chain is its target (R97). -/
theorem resolveResult_link (hzero : refReservedSet cell = false) (hdirect : refIndirect cell = false)
    (htarget : (u.lane l).progress.resolveTarget = .link) (h : isAligned4 (refAddress cell) = true) :
    resolveResult u l r cell = actLink u l r (refAddress cell) (u.lane l).progress.hopCount
      fun v => v.chainEnded l (refAddress cell) := by
  simp [resolveResult, hzero, hdirect, htarget, h, State.chainEnded]

/-! ### The repeat logic of a LINK whose target is known, outcome by outcome (R8, R97) -/

variable {target : LAddr} {hops : Nat} {finish : State → State}

theorem actLink_taken {rr : Option RepeatRecord}
    (h : linkOutcome (u.lane l).repeatRecord (u.lane l).progress.pointer r.repeatCount = .taken rr) :
    actLink u l r target hops finish =
      takeLink ((finish u).updLane l fun x => { x with repeatRecord := rr }) l target := by
  simp [actLink, h]

theorem actLink_nested {address : LAddr}
    (h : linkOutcome (u.lane l).repeatRecord (u.lane l).progress.pointer r.repeatCount = .nested address) :
    actLink u l r target hops finish =
      (u, .fault ⟨.nestedRepeat, (u.lane l).progress.pointer, address, .walk, hops⟩) := by
  simp [actLink, h]

theorem actLink_fallThrough_next
    (h : linkOutcome (u.lane l).repeatRecord (u.lane l).progress.pointer r.repeatCount = .fallThrough)
    (hnext : (u.lane l).progress.pointer ≠ 0x7FFC) :
    actLink u l r target hops finish =
      completeAdvance ((finish u).updLane l fun x => { x with repeatRecord := none }) l := by
  have hne : ¬ (u.lane l).progress.pointer = Config.lastRecord := hnext
  simp only [actLink, h, if_neg hne]

/-- A fall-through that is to fault RANGE leaves the resolution as the read left it (R95, R97). -/
theorem actLink_fallThrough_last
    (h : linkOutcome (u.lane l).repeatRecord (u.lane l).progress.pointer r.repeatCount = .fallThrough)
    (hlast : (u.lane l).progress.pointer = 0x7FFC) :
    actLink u l r target hops finish = completeAdvance (u.updLane l fun x => { x with repeatRecord := none }) l := by
  have heq : (u.lane l).progress.pointer = Config.lastRecord := hlast
  simp only [actLink, h, if_pos heq]

end

/-! ### The end of a resolution -/

/-- A lane whose resolution has ended without a fault (R94, R96, R97). -/
def Lane.resolutionEnded (x : Lane) : Lane :=
  { x with hop := ⟨0, .unset⟩, progress := { x.progress with resolveTarget := .src, hopCount := 0 } }

section
variable {s : State} {l : LaneId} {x : Lane}

theorem leaves_endResolution (hx : s.lane l = x) (h : x.tidy) :
    Leaves l x.resolutionEnded 0 s (endResolution s l) := by
  have hcount := leaves_updLane hx fun x =>
    { x with progress := { x.progress with hopCount := 0, resolveTarget := .src } }
  exact hcount.quiet (leaves_release hcount.lane h .hop)

theorem leaves_chainEnded (hx : s.lane l = x) (h : x.tidy) (target : LAddr) :
    Leaves l (x.resolvedTo target) 0 s (s.chainEnded l target) := by
  have hsource := leaves_updLane hx fun x => { x with progress := { x.progress with resolvedSource := target } }
  exact hsource.quiet (leaves_endResolution hsource.lane h)

/-- The end of a resolution takes HOP's request out of the lookup request queue (R106). -/
theorem endResolution_queue (h : s.CursorSound l .hop) :
    (endResolution s l).map.queue = s.map.queue.filter (· ≠ (l, .hop)) := by
  have hsound := h.congr (t := s.updLane l fun x =>
    { x with progress := { x.progress with hopCount := 0, resolveTarget := .src } }) rfl
    (by rw [State.lane_updLane_same]; rfl)
  rw [endResolution, release_eq hsound]
  refine List.filter_congr fun q _ => ?_
  by_cases e : q = (l, .hop) <;> simp [e]

theorem chainEnded_queue (h : s.CursorSound l .hop) (target : LAddr) :
    (s.chainEnded l target).map.queue = s.map.queue.filter (· ≠ (l, .hop)) :=
  endResolution_queue (h.congr rfl (by rw [State.lane_updLane_same]; rfl))

theorem endResolution_window (s : State) (l : LaneId) : (endResolution s l).window = s.window := by
  simp [endResolution]

end

/-- A sound lookup unit is sound in the state the results of a beat are taken in. -/
theorem State.lookupsSound.taken {s : State} (h : s.lookupsSound) (b : Beat) (r : Role) :
    (s.taken b).CursorSound b.lane r :=
  (h.cursorSound b.lane r).congr (s.taken_map b) (by rw [State.taken_lane]; cases r <;> rfl)

/-! ### Results that change no window -/

theorem conclude_beginResolution_window (s : State) (l : LaneId) (target : ResolveTarget) (cell : LAddr) (step : Bool) :
    (concludeBeat (beginResolution s l target cell) l step).window = s.window := by
  rw [beginResolution, conclude_goOn_window, retarget_window, State.updLane_window]

theorem conclude_setUpTransfer_window (s : State) (l : LaneId) (r : RecordCopy) (source destination : LAddr)
    (step : Bool) : (concludeBeat (setUpTransfer s l r source destination) l step).window = s.window := by
  rw [setUpTransfer, conclude_goOn_window, retarget_window, retarget_window, State.updLane_window]

/-- The beat end that changes one lane and its lookups and neither an interrupt bit nor the window. -/
theorem Leaves.atSilentEnd {l : LaneId} {x : Lane} {s t : State} (h : Leaves l x 0 { s with beat := none } t)
    (hwindow : t.window = s.window) :
    t.lane l = x ∧ OtherLanesKept s t l ∧ t.map.entries = s.map.entries ∧
      t = { s with beat := none, lanes := t.lanes, map := t.map } := by
  obtain ⟨hlane, hothers, hentries, hframe⟩ := h.atQuietEnd
  rw [hwindow] at hframe
  exact ⟨hlane, hothers, hentries, hframe⟩

/-- Settles O45, by the cell and by the reference it ends. -/
theorem cellsEndOrContinueAResolution : Obligations.CellsEndOrContinueAResolution := by
  intro s b r hends hcopy hsound _ hop cell hwork
  have hload : b.work.isLoad = false := by rw [hwork]; rfl
  have hexec := exec_beatEnd hends
  rw [beatResult_resolve hcopy hwork] at hexec
  have htaken := leaves_taken s b
  have hwindow := State.taken_window_of_not_load (s := s) hload
  refine ⟨fun hset => ?_, fun hzero hindirect hdeep => ?_, b.progress.addressOf_hop, fun hzero hindirect hdepth => ?_,
    fun hzero hdirect htarget hdst => ?_, fun hzero hdirect htarget => ?_⟩
  case refine_1 =>
    rw [resolveResult_reserved (refReservedSet_true hset), State.taken_lane] at hexec
    exact faultsAtEnd_of_result hload hsound hexec
  case refine_2 =>
    rw [resolveResult_tooDeep (refReservedSet_false hzero) hindirect (by rwa [State.taken_lane]), State.taken_lane]
      at hexec
    exact faultsAtEnd_of_result hload hsound hexec
  case refine_3 =>
    rw [resolveResult_nextCell (refReservedSet_false hzero) hindirect (by rwa [State.taken_lane])] at hexec
    rw [← Progress.atCell_eq, ← page_address]
    have hcell := htaken.quiet (leaves_updLane htaken.lane fun x =>
      { x with progress := x.progress.atCell (refAddress cell) })
    have hhop := hcell.quiet (leaves_retarget hcell.lane .hop (refAddress cell).page)
    obtain ⟨hlane, hothers, hentries, hframe⟩ := (hhop.quiet (leaves_conclude_goOn hhop.lane b.step)).atSilentEnd
      (by rw [conclude_goOn_window, retarget_window, State.updLane_window, hwindow])
    refine ⟨_, hexec, hlane, hothers, hentries, ?_, hframe⟩
    rw [conclude_goOn_map, retarget_queue, hcell.lane, State.updLane_map, State.taken_map]
    rfl
  case refine_4 =>
    rw [resolveResult_nextReference (refReservedSet_false hzero) hdirect (by rwa [State.taken_lane]) hdst] at hexec
    have hsource := htaken.quiet (leaves_updLane htaken.lane fun x =>
      { x with progress := { x.progress with resolvedSource := refAddress cell } })
    have hresolve := hsource.quiet (leaves_conclude_beginResolution hsource.lane .dst (refAddress r.word2) b.step)
    obtain ⟨hlane, hothers, hentries, hframe⟩ := hresolve.atSilentEnd
      (by rw [conclude_beginResolution_window, State.updLane_window, hwindow])
    refine ⟨_, hexec, hlane, hothers, hentries, ?_, hframe⟩
    rw [conclude_beginResolution_queue hsource.lane, State.updLane_map, State.taken_map, ← page_address]
    rfl
  case refine_5 =>
    rw [resolveResult_transfer (refReservedSet_false hzero) hdirect (by rwa [State.taken_lane]), State.taken_lane]
      at hexec
    have hended := htaken.quiet (leaves_endResolution htaken.lane (hsound.tidy b.lane))
    have hset := hended.quiet (leaves_conclude_setUpTransfer hended.lane r
      (b.progress.sourceAfter (refAddress cell)) (b.progress.destinationAfter r (refAddress cell)) b.step)
    obtain ⟨hlane, hothers, hentries, hframe⟩ := hset.atSilentEnd
      (by rw [conclude_setUpTransfer_window, endResolution_window, hwindow])
    exact ⟨_, hexec, hlane, hothers, hentries, hframe⟩

/-! ### The target of a LINK's chain is acted on -/

/-- A LINK that jumps at its beat end, from the lane and the lookup unit its results have left (R7, R90). -/
theorem jumpsTo_of_takeLink {s : State} {b : Beat} {target : LAddr} {x : Lane} {u : State}
    (hexec : exec .beatEnd s = .next (concludeBeat (takeLink u b.lane target) b.lane b.step))
    (hu : Leaves b.lane x 0 { s with beat := none } u) : JumpsTo s b x.counted u.map.queue target := by
  have hjump := hu.after (leaves_conclude_takeLink hu.lane target b.step)
  obtain ⟨hlane, hothers, hentries, hints, hframe⟩ := hjump.atLaneEnd
  refine ⟨_, hexec, hlane, hothers, hentries, conclude_takeLink_queue hu.lane target b.step, ?_, hframe⟩
  rw [hints]
  cases b.step <;> simp

/-- A completion that faults RANGE at 0x7FFC releases the lane's cursors (R16, R41, R106). -/
theorem conclude_completeAdvance_last_map {s : State} {l : LaneId} (h : ∀ r, s.CursorSound l r)
    (hlast : (s.lane l).progress.pointer = 0x7FFC) (step : Bool) :
    (concludeBeat (completeAdvance s l) l step).map = s.map.without l := by
  have hdrop := leaves_stranded (s := s) (l := l) rfl
  have hcount := hdrop.quiet (leaves_countBeat hdrop.lane)
  have hmap : (countBeat ((dropCopy s l).updLane l fun x => { x with phase := .load }) l).map = s.map :=
    dropCopy_map s l
  have hcursors := fun r => (h r).congr hmap (by rw [hcount.lane]; cases r <;> rfl)
  rw [completeAdvance_last hlast, concludeBeat, applyVerdict, enterFaulted_eq hcursors]
  exact congrArg (MapUnit.without · l) hmap

/-- The beat has read the last cell of a LINK's chain, an aligned direct one (R97). -/
structure Beat.ReadsLinkTarget (s : State) (b : Beat) (r : RecordCopy) (target : LAddr) : Prop where
  ends : exec .beatEnd s = .next (concludeBeat
    (actLink (s.taken b) b.lane r target b.progress.hopCount fun v => v.chainEnded b.lane target) b.lane b.step)
  sound : s.lookupsSound
  notLoad : b.work.isLoad = false

section
variable {s : State} {b : Beat} {r : RecordCopy} {target : LAddr}

/-- The lane of the beat once its chain has ended and the repeat logic has set its repeat record (R8, R97). -/
theorem leaves_taken_chainEnded (hsound : s.lookupsSound) (target : LAddr) (rr : Option RepeatRecord) :
    Leaves b.lane { ({ s.lane b.lane with progress := b.progress } : Lane).resolvedTo target with repeatRecord := rr }
      0 { s with beat := none }
      (((s.taken b).chainEnded b.lane target).updLane b.lane fun x => { x with repeatRecord := rr }) := by
  have hended := (leaves_taken s b).quiet (leaves_chainEnded (s.taken_lane b) (hsound.tidy b.lane) target)
  exact hended.quiet (leaves_updLane hended.lane fun x => { x with repeatRecord := rr })

theorem Beat.ReadsLinkTarget.jumps (h : b.ReadsLinkTarget s r target) {rr : Option RepeatRecord}
    (houtcome : linkOutcome (s.lane b.lane).repeatRecord b.progress.pointer r.repeatCount = .taken rr) :
    JumpsTo s b { ((s.lane b.lane).served b).resolvedTo target with repeatRecord := rr }
      (s.map.queue.filter (· ≠ (b.lane, .hop))) target := by
  have hexec := h.ends
  rw [actLink_taken (by rwa [State.taken_lane])] at hexec
  have hjump := jumpsTo_of_takeLink hexec (leaves_taken_chainEnded h.sound target rr)
  rw [State.updLane_map, chainEnded_queue (h.sound.taken b .hop), State.taken_map] at hjump
  exact hjump

theorem Beat.ReadsLinkTarget.fallsThrough (h : b.ReadsLinkTarget s r target)
    (houtcome : linkOutcome (s.lane b.lane).repeatRecord b.progress.pointer r.repeatCount = .fallThrough)
    (hnext : b.progress.pointer ≠ 0x7FFC) :
    Runs .beatEnd s fun t =>
      t.lane b.lane =
        ({ ((s.lane b.lane).served b).resolvedTo target with repeatRecord := none } : Lane).completed b.step ∧
      OtherLanesKept s t b.lane ∧ t.map.entries = s.map.entries ∧
      t.ints = s.ints.setting (completionInts b.progress.pointer b.step) ∧
      t = { s with beat := none, lanes := t.lanes, map := t.map, ints := t.ints, window := t.window } := by
  have hexec := h.ends
  rw [actLink_fallThrough_next (by rwa [State.taken_lane]) (by rwa [State.taken_lane])] at hexec
  have hended := leaves_taken_chainEnded h.sound (b := b) target none
  have htidy := (h.sound.tidy b.lane).setCursor .hop (c := .unset) fun _ => rfl
  exact ⟨_, hexec, (hended.after (leaves_conclude_completeAdvance hended.lane htidy b.step)).atLaneEnd⟩

/-- A fall-through at 0x7FFC faults RANGE with the resolution as the read left it (R16, R95, R97; log 11). -/
theorem Beat.ReadsLinkTarget.fallsThrough_last (h : b.ReadsLinkTarget s r target)
    (houtcome : linkOutcome (s.lane b.lane).repeatRecord b.progress.pointer r.repeatCount = .fallThrough)
    (hlast : b.progress.pointer = 0x7FFC) :
    Runs .beatEnd s fun t =>
      t.lane b.lane = ({ (s.lane b.lane).served b with repeatRecord := none } : Lane).completed b.step ∧
      (t.lane b.lane).state = .faulted ∧ (t.lane b.lane).progress = { b.progress with current := none } ∧
      OtherLanesKept s t b.lane ∧ t.map = s.map.without b.lane ∧ t.ints = s.ints.setting 0x02 ∧
      t = { s with beat := none, lanes := t.lanes, map := t.map, ints := t.ints, window := t.window } := by
  have hexec := h.ends
  rw [actLink_fallThrough_last (by rwa [State.taken_lane]) (by rwa [State.taken_lane])] at hexec
  have hremoved := leaves_taken_repeat s b none
  have hdone := hremoved.after (leaves_conclude_completeAdvance hremoved.lane (h.sound.tidy b.lane) b.step)
  obtain ⟨hlane, hothers, -, hints, hframe⟩ := hdone.atLaneEnd
  rw [completionInts_last hlast] at hints
  have hcursors : ∀ q, ((s.taken b).updLane b.lane fun x => { x with repeatRecord := none }).CursorSound b.lane q :=
    fun q => (h.sound.taken b q).congr rfl (by rw [State.lane_updLane_same]; cases q <;> rfl)
  have hmap := conclude_completeAdvance_last_map hcursors (by rw [hremoved.lane]; exact hlast) b.step
  rw [State.updLane_map, State.taken_map] at hmap
  have hfaulted := Lane.completed_last (x := { (s.lane b.lane).served b with repeatRecord := none }) hlast b.step
  exact ⟨_, hexec, hlane, congrArg Lane.state (hlane.trans hfaulted), congrArg Lane.progress (hlane.trans hfaulted),
    hothers, hmap, hints, hframe⟩

theorem Beat.ReadsLinkTarget.nests (h : b.ReadsLinkTarget s r target) {address : LAddr}
    (houtcome : linkOutcome (s.lane b.lane).repeatRecord b.progress.pointer r.repeatCount = .nested address) :
    FaultsAtEnd s b ⟨.nestedRepeat, b.progress.pointer, address, .walk, b.progress.hopCount⟩ := by
  have hexec := h.ends
  rw [actLink_nested (by rwa [State.taken_lane]), State.taken_lane] at hexec
  exact faultsAtEnd_of_result h.notLoad h.sound hexec

end

/-- Settles O46, by the alignment of the target and by the outcome of the repeat logic. -/
theorem resolvedLinksAreActedOn : Obligations.ResolvedLinksAreActedOn := by
  intro s b r hends hcopy hsound htarget hop cell hwork hzero hdirect
  have hload : b.work.isLoad = false := by rw [hwork]; rfl
  have hexec := exec_beatEnd hends
  rw [beatResult_resolve hcopy hwork] at hexec
  refine ⟨fun hmisaligned => ?_, fun haligned => ?_⟩
  case refine_1 =>
    rw [resolveResult_misaligned (refReservedSet_false hzero) hdirect (by rwa [State.taken_lane])
      (by rw [isAligned4_address]; exact decide_eq_false hmisaligned), State.taken_lane] at hexec
    exact faultsAtEnd_of_result hload hsound hexec
  case refine_2 =>
    rw [resolveResult_link (refReservedSet_false hzero) hdirect (by rwa [State.taken_lane])
      (by rw [isAligned4_address]; exact decide_eq_true haligned), State.taken_lane] at hexec
    have hread : b.ReadsLinkTarget s r (refAddress cell) := ⟨hexec, hsound, hload⟩
    refine ⟨fun hcount => ?_, fun hcount hnone => ?_, fun hcount a m hheld =>
      ⟨fun hown hmore => ?_, fun hown hdone hlast => ?_, fun hown hdone hnext => ?_, fun hother => ?_⟩⟩
    · exact hread.jumps (linkOutcome_zero hcount _ _)
    · exact hread.jumps (by rw [hnone]; exact linkOutcome_first hcount _)
    · exact hread.jumps (by rw [hheld, hown]; exact linkOutcome_again hcount _ hmore)
    · exact hread.fallsThrough_last (by rw [hheld, hown]; exact linkOutcome_done hcount _ hdone) hlast
    · exact hread.fallsThrough (by rw [hheld, hown]; exact linkOutcome_done hcount _ hdone) hnext
    · exact hread.nests (by rw [hheld]; exact linkOutcome_other hcount _ hother)

end Sys2Proof.Machine
end

section
/-! SUPPORT. What every command makes of the cursors and of the lookup unit, said once: a condition on them that the few
operations on cursors keep is kept by every command (R104 to R107). O57 and O58 are two such conditions. -/

namespace Sys2Proof.Machine

/-! ### Lanes at rest -/

/-- The lane states in which a lane holds no cursor: OFF, IDLE and FAULTED (R27, R41, R106). -/
def LaneState.atRest : LaneState → Bool
  | .off => true
  | .idle => true
  | .faulted => true
  | _ => false

/-- A lane at rest holds UNSET cursors only. -/
def Lane.Rests (x : Lane) : Prop := x.state.atRest = true → ∀ r, (x.cursor r).status = .unset

theorem Lane.rests_of_awake {x : Lane} (h : x.state.atRest = false) : x.Rests :=
  fun e => absurd (h.symm.trans e) Bool.false_ne_true

theorem Lane.rests_of_unset {x : Lane} (h : ∀ r, (x.cursor r).status = .unset) : x.Rests := fun _ => h

theorem Lane.settled_awake (x : Lane) (reasons : Reasons) : (x.settled reasons).state.atRest = false := by
  unfold Lane.settled
  dsimp only
  split <;> rfl

theorem release_unset (s : State) (l : LaneId) (r q : Role) (h : q = r ∨ ((s.lane l).cursor q).status = .unset) :
    (((release s l r).lane l).cursor q).status = .unset := by
  rw [release_lane]
  by_cases e : q = r
  · subst e
    split
    · assumption
    · rw [Lane.cursor_setCursor_same]
      rfl
  · have hq := h.resolve_left e
    split
    · exact hq
    · rwa [Lane.cursor_setCursor_other _ _ e]

/-- The release of all four cursors leaves none but UNSET ones, in every state (R106). -/
theorem releaseAll_unset (s : State) (l : LaneId) (q : Role) : (((releaseAll s l).lane l).cursor q).status = .unset := by
  simp only [releaseAll, allRoles, List.foldl]
  cases q with
  | walk => exact release_unset _ _ _ _ (.inr (release_unset _ _ _ _ (.inr (release_unset _ _ _ _ (.inr
      (release_unset _ _ _ _ (.inl rfl)))))))
  | hop => exact release_unset _ _ _ _ (.inr (release_unset _ _ _ _ (.inr (release_unset _ _ _ _ (.inl rfl)))))
  | src => exact release_unset _ _ _ _ (.inr (release_unset _ _ _ _ (.inl rfl)))
  | dst => exact release_unset _ _ _ _ (.inl rfl)

/-! ### Conditions that the operations on cursors keep -/

/-- A condition on the cursors and the lookup unit that a retarget and a release keep. `P o` says nothing of what the lanes of
`o` hold while they are at rest: a command opens a lane before it retargets its cursors and closes it when the lane has
entered its new state. -/
structure KeptByCursors (P : Set LaneId → State → Prop) : Prop where
  opened : ∀ {o : Set LaneId} {s : State} (l : LaneId), P o s → P (insert l o) s
  closed : ∀ {o : Set LaneId} {s : State} {l : LaneId}, P (insert l o) s → (s.lane l).Rests → P o s
  same : ∀ {o : Set LaneId} {s t : State}, P o s → t.map = s.map → (∀ k, (t.lane k).cursor = (s.lane k).cursor) →
    (∀ k, k ∉ o → (t.lane k).state.atRest = true → (s.lane k).state.atRest = true) → P o t
  retarget : ∀ {o : Set LaneId} {s : State} {l : LaneId} (r : Role) (page : BitVec 7), l ∈ o → P o s →
    P o (retarget s l r page)
  release : ∀ {o : Set LaneId} {s : State} (l : LaneId) (r : Role), P o s → P o (release s l r)

namespace KeptByCursors

variable {P : Set LaneId → State → Prop} {o : Set LaneId} {s t : State} {l : LaneId}

/-- Operations on neither the lanes nor the map unit keep the condition. -/
theorem untouched (h : KeptByCursors P) (hs : P o s) (hmap : t.map = s.map := by rfl) (hlanes : t.lanes = s.lanes := by rfl) :
    P o t :=
  h.same hs hmap (fun k => by rw [State.lane_congr hlanes]) fun k _ => by rw [State.lane_congr hlanes]; exact id

/-- An update of a lane that changes no cursor, and puts no lane to rest that is not open. -/
theorem updLane (h : KeptByCursors P) {f : Lane → Lane} (hs : P o s)
    (hrest : l ∉ o → (f (s.lane l)).state.atRest = true → (s.lane l).state.atRest = true)
    (hf : ∀ x, (f x).cursor = x.cursor := by exact fun _ => rfl) : P o (s.updLane l f) := by
  refine h.same hs rfl (fun k => ?_) fun k hk => ?_ <;> rw [State.lane_updLane] <;> split
  · next e => rw [hf, e]
  · rfl
  · next e =>
    subst e
    exact hrest hk
  · exact id

/-- An update of an open lane. -/
theorem updOpen (h : KeptByCursors P) {f : Lane → Lane} (hs : P (insert l o) s)
    (hf : ∀ x, (f x).cursor = x.cursor := by exact fun _ => rfl) : P (insert l o) (s.updLane l f) :=
  h.updLane hs (fun hl => absurd (Set.mem_insert l o) hl) hf

/-- The update with which an open lane enters its new state. -/
theorem entered (h : KeptByCursors P) {f : Lane → Lane} (hs : P (insert l o) s) (hrests : (f (s.lane l)).Rests)
    (hf : ∀ x, (f x).cursor = x.cursor := by exact fun _ => rfl) : P o (s.updLane l f) :=
  h.closed (h.updOpen hs hf) (by rwa [State.lane_updLane_same])

theorem foldl {α : Type} (as : List α) {f : State → α → State} (hf : ∀ {t : State} (a : α), P o t → P o (f t a))
    (hs : P o s) : P o (as.foldl f s) :=
  List.foldlRecOn as f hs fun _ ht a _ => hf a ht

/-! ### Entries into lane states -/

theorem settle (h : KeptByCursors P) (hs : P (insert l o) s) (reasons : Reasons) : P o (settle s l reasons) :=
  h.entered (f := fun x => x.settled reasons) hs (Lane.rests_of_awake (Lane.settled_awake _ reasons))

theorem enterHalted (h : KeptByCursors P) (hs : P (insert l o) s) (reason : HaltReason) (resume : Resume) :
    P o (enterHalted s l reason resume) :=
  h.untouched (h.entered (f := fun x => x.haltedBy reason resume) hs (Lane.rests_of_awake rfl))

theorem haltNow (h : KeptByCursors P) (hs : P o s) (l : LaneId) : P o (haltNow s l) := by
  unfold Machine.haltNow
  split
  · exact h.enterHalted (h.opened l hs) _ _
  · exact h.enterHalted (h.opened l hs) _ _
  · exact h.enterHalted (h.opened l hs) _ _
  · exact hs

theorem releaseAll (h : KeptByCursors P) (hs : P o s) (l : LaneId) : P o (releaseAll s l) :=
  foldl allRoles (fun r ht => h.release l r ht) hs

/-- A lane that has released its cursors may enter any state. -/
theorem enteredReleased (h : KeptByCursors P) {f : Lane → Lane} (hs : P (insert l o) s)
    (hf : ∀ x, (f x).cursor = x.cursor := by exact fun _ => rfl) : P o ((Machine.releaseAll s l).updLane l f) :=
  h.entered (h.releaseAll hs l) (Lane.rests_of_unset fun r => by rw [hf]; exact releaseAll_unset s l r) hf

theorem enterFaulted (h : KeptByCursors P) (hs : P (insert l o) s) (f : FaultRecord) : P o (enterFaulted s l f) :=
  h.untouched (h.enteredReleased hs (f := fun x =>
    { x with
      state := .faulted, reasons := .empty, portWait := none, wait := none, haltReason := none
      resume := none, deferred := none, credit := 0, fault := some f }))

theorem asyncFault (h : KeptByCursors P) (hs : P o s) (l : LaneId) (cause : FaultCause) (role : Role) :
    P o (asyncFault s l cause role) := by
  have hfault (f : FaultRecord) := h.enterFaulted (h.opened l hs) f
  unfold Machine.asyncFault
  dsimp only
  split
  · split
    · exact h.updLane hs fun _ => id
    · exact hfault _
  · exact hfault _
  · exact hfault _
  · exact hfault _
  · exact hs

theorem dropCopy (h : KeptByCursors P) (hs : P o s) (l : LaneId) : P o (dropCopy s l) := by
  rw [dropCopy_eq]
  exact h.untouched (h.updLane (f := fun x => { x with progress := { x.progress with current := none } }) hs fun _ => id)

theorem clearLane (h : KeptByCursors P) (hs : P (insert l o) s) (into : LaneState) (config : LaneConfig) :
    P o (clearLane s l into config) :=
  h.enteredReleased (h.dropCopy hs l)

theorem enterIdleAtStop (h : KeptByCursors P) (hs : P (insert l o) s) : P o (enterIdleAtStop s l) :=
  h.enteredReleased (h.dropCopy hs l)

/-! ### Completions, wakes and beats -/

theorem completeAdvance (h : KeptByCursors P) (hs : P (insert l o) s) : P (insert l o) (completeAdvance s l).1 := by
  have hload : P (insert l o) ((Machine.dropCopy s l).updLane l fun x => { x with phase := .load }) :=
    h.updOpen (h.dropCopy hs l)
  unfold Machine.completeAdvance
  dsimp only
  split
  · exact hload
  · exact h.retarget .walk _ (Set.mem_insert l o) (h.updOpen hload)

/-- Every verdict leaves its lane awake or with its cursors released (R25, R14, R36, R37, R41). -/
theorem applyVerdict (h : KeptByCursors P) (hs : P (insert l o) s) (step : Bool) (v : Verdict) :
    P o (applyVerdict s l step v) := by
  cases v with
  | run reasons portWait => exact h.settle (h.updOpen hs) reasons
  | completed =>
    cases step with
    | false => exact h.settle hs .empty
    | true => exact h.enterHalted hs .step .active
  | waiting w =>
    exact h.entered (f := fun x => { x with state := .waiting, reasons := .empty, wait := some w, credit := 0 }) hs
      (Lane.rests_of_awake rfl)
  | breakHalt => exact h.enterHalted hs .breakFlag .active
  | idle => exact h.enterIdleAtStop hs
  | fault f => exact h.enterFaulted hs f

theorem completeWait (h : KeptByCursors P) (hs : P o s) (l : LaneId) : P o (completeWait s l) :=
  h.applyVerdict (h.completeAdvance (h.updOpen (h.opened l hs))) _ _

theorem setSignal (h : KeptByCursors P) (hs : P o s) (n : SignalId) : P o (setSignal s n) := by
  rcases setSignal_eq s n with e | ⟨signals, e⟩ <;> rw [e]
  · exact hs
  · exact foldl _ (fun l ht => h.completeWait ht l) (h.untouched (t := s.withSignals signals) hs)

/-- The results of a beat keep the condition while the beat's lane is open. -/
theorem keptByResults (h : KeptByCursors P) (o : Set LaneId) (l : LaneId) : KeptByResults l (P (insert l o)) where
  updLane hs hf := h.updOpen hs fun x => (hf x).2
  retarget r page hs := h.retarget r page (Set.mem_insert l o) hs
  release r hs := h.release l r hs
  dropCopy hs := h.dropCopy hs l
  pushed _ _ hs := h.untouched hs
  setSignal n hs := h.setSignal hs n
  clearSignal _ hs := h.untouched hs

theorem setSignals (h : KeptByCursors P) (hs : P o s) (mask : Half) : P o (setSignals s mask) := by
  unfold Machine.setSignals
  refine foldl allSignals (fun n ht => ?_) hs
  split
  · exact h.setSignal ht n
  · exact ht

theorem takeDeferred (h : KeptByCursors P) (hs : P (insert l o) s) (held : Option Deferred) (step : Bool) (v : Verdict) :
    P o (takeDeferred s l held step v) := by
  unfold Machine.takeDeferred
  split
  · exact h.applyVerdict hs step v
  · exact h.clearLane hs _ _
  · exact h.haltNow (h.applyVerdict hs step v) l
  · split
    · exact h.applyVerdict hs step _
    · exact h.applyVerdict hs step _
    · exact h.enterFaulted hs _

theorem beatEnd (h : KeptByCursors P) (hs : P o s) : P o (beatEnd s) := by
  cases hb : s.beat with
  | none => simpa [Machine.beatEnd, hb] using hs
  | some b =>
    cases hover : b.work.over with
    | false => simpa [Machine.beatEnd, hb, hover] using hs
    | true =>
      have htaken : P (insert b.lane o) (s.taken b) := by
        rw [State.taken_eq]
        exact h.untouched (h.updOpen (f := fun x => { x with progress := b.progress }) (h.opened b.lane hs))
      have hresults := ((h.keptByResults o b.lane).beatResult htaken b.work).state
      rw [beatEnd_over hb hover]
      exact h.takeDeferred (h.updOpen hresults) _ _ _

/-! ### Releases of block reasons -/

theorem removeReason (h : KeptByCursors P) (hs : P o s) (l : LaneId) (remove : Reasons → Reasons) :
    P o (removeReason s l remove) := by
  unfold Machine.removeReason
  dsimp only
  split
  · split
    · exact h.settle (h.opened l hs) .empty
    · exact h.updLane hs fun _ => id
  · split
    · exact h.updLane hs fun _ => id
    · exact hs
  · exact hs

theorem releaseQueue (h : KeptByCursors P) (hs : P o s) : P o (releaseQueue s) := by
  unfold Machine.releaseQueue
  refine foldl allLanes (fun l ht => ?_) hs
  split
  · exact h.removeReason ht l _
  · exact ht

theorem releaseLanes (h : KeptByCursors P) (hs : P o s) (p : PortId) (dir : Direction) : P o (releaseLanes s p dir) := by
  unfold Machine.releaseLanes
  refine foldl allLanes (fun l ht => ?_) hs
  split
  · exact h.removeReason (h.updLane ht fun _ => id) l _
  · exact ht

theorem faultWaiters (h : KeptByCursors P) (hs : P o s) (p : PortId) (dir : Direction) (role : Role) :
    P o (faultWaiters s p dir role) := by
  unfold Machine.faultWaiters
  refine foldl allLanes (fun l ht => ?_) hs
  split
  · exact h.asyncFault ht l .portOff role
  · exact ht

/-- What a lookup completion makes of the lane whose cursor it has mapped (R110). -/
theorem takeMapping (h : KeptByCursors P) (hs : P o s) (l : LaneId) : P o (takeMapping s l) := by
  unfold Machine.takeMapping
  split
  · exact h.removeReason hs l _
  · exact hs

/-- What a shootdown makes of a lane whose cursor has left MAPPED (R114). -/
theorem loseMapping (h : KeptByCursors P) (hs : P o s) (l : LaneId) : P o (loseMapping s l) := by
  unfold Machine.loseMapping
  dsimp only
  split
  · exact hs
  · split
    · split
      · exact hs
      · exact h.settle (h.opened l hs) .empty
    · exact h.updLane hs fun _ => id
    · exact hs

theorem failLookup (h : KeptByCursors P) (hs : P o s) (l : LaneId) (r : Role) (cause : FaultCause) :
    P o (failLookup s l r cause) := by
  unfold Machine.failLookup
  dsimp only
  split
  · exact h.release l r (h.asyncFault hs l cause r)
  · exact h.asyncFault hs l cause r

/-! ### The slot tick -/

theorem countTimeout (h : KeptByCursors P) (hs : P o s) (l : LaneId) : P o (countTimeout s l) := by
  unfold Machine.countTimeout
  split
  · split
    · unfold takeTimeout
      split
      · next w _ _ _ =>
        rcases push_cases s l .timeout w.tag with e | e <;> rw [e] <;> dsimp only
        · exact h.completeWait (s := s.pushed l .timeout w.tag) (h.untouched hs) l
        · exact h.settle (h.updOpen (h.opened l hs)) _
      · exact h.completeWait hs l
    · exact h.updLane hs fun _ => id
  · exact hs

/-- The decision of a slot and the advance of the wheel change no cursor and no lane state (R52 to R57). -/
theorem tickAdvanced (h : KeptByCursors P) (hs : P o s) : P o s.tickAdvanced := by
  have hdecided := slotDecided_decideSlot s
  have hmap : (decideSlot s).map = s.map := by rw [hdecided.rest]
  have hdone : P o (decideSlot s) := by
    refine h.same hs hmap (fun k => ?_) fun k _ => ?_ <;> rw [hdecided.lanes k]
    · rfl
    · exact id
  rw [tickAdvanced_eq]
  exact h.untouched hdone

theorem slotTick (h : KeptByCursors P) (hs : P o s) : P o (slotTick s) := by
  cases hrun : s.wheel.running with
  | false => rwa [slotTick_stopped hrun]
  | true =>
    rw [slotTick_running hrun]
    exact foldl allLanes (fun l ht => h.countTimeout ht l) (h.tickAdvanced hs)

theorem timebaseTick (h : KeptByCursors P) (hs : P o s) : P o (timebaseTick s) := by
  unfold Machine.timebaseTick
  split
  · split
    · exact h.slotTick hs
    · exact h.untouched hs
  · exact hs

theorem waitTimeout (h : KeptByCursors P) (hs : P o s) (l : LaneId) : P o (waitTimeout s l) := by
  rcases waitTimeout_cases s l with e | e <;> rw [e]
  · exact h.slotTick hs
  · exact hs

/-! ### Lane commands -/

theorem startLane (h : KeptByCursors P) (hs : P o s) (l : LaneId) : P o (startLane s l).1 := by
  unfold Machine.startLane
  split
  · dsimp only
    split
    · exact hs
    · split
      · exact hs
      · dsimp only
        exact h.entered (h.retarget .walk _ (Set.mem_insert l o) (h.updOpen (h.opened l hs))) (Lane.rests_of_awake rfl)
  · exact hs

theorem haltLane (h : KeptByCursors P) (hs : P o s) (l : LaneId) : P o (haltLane s l).1 := by
  unfold Machine.haltLane
  split
  · exact hs
  · split
    · split <;> dsimp only
      · exact h.updLane hs fun _ => id
      · exact h.haltNow hs l
    · exact h.haltNow hs l
    · exact h.haltNow hs l
    · exact hs

theorem abortLane (h : KeptByCursors P) (hs : P o s) (l : LaneId) : P o (abortLane s l).1 := by
  unfold Machine.abortLane
  split
  · exact hs
  · split <;> dsimp only
    · exact h.updLane hs fun _ => id
    · exact h.clearLane (h.opened l hs) _ _
  · exact h.clearLane (h.opened l hs) _ _

theorem resumeHalted (h : KeptByCursors P) (hs : P o s) (l : LaneId) : P o (resumeHalted s l) := by
  unfold Machine.resumeHalted
  dsimp only
  have hunhalted : P o (s.updLane l fun x => { x with haltReason := none, resume := none }) := h.updLane hs fun _ => id
  generalize (s.updLane l fun x => { x with haltReason := none, resume := none }) = u at hunhalted
  split
  · exact h.settle (h.opened l hunhalted) _
  · split
    · next t ht =>
      obtain ⟨signals, rfl⟩ := satisfyWait_signals ht
      exact h.completeWait (h.untouched hunhalted) l
    · exact h.entered (h.opened l hunhalted) (Lane.rests_of_awake rfl)
  · exact h.settle (h.opened l hunhalted) _

/-- Every lane command keeps the condition (R26 to R32). -/
theorem laneCommandOf (h : KeptByCursors P) (hs : P o s) (code : BitVec 3) (l : LaneId) :
    P o (laneCommandOf code s l).1 := by
  rcases laneCommandOf_cases code with e | e | e | e | e | e | e <;> rw [e]
  · unfold enableLane
    split
    · next hoff =>
      dsimp only
      exact h.updLane hs fun _ _ => by rw [hoff]; rfl
    · exact hs
  · unfold disableLane
    split
    case h_4 => exact hs
    all_goals exact h.clearLane (h.opened l hs) _ _
  · exact h.startLane hs l
  · exact h.haltLane hs l
  · unfold resumeLane
    split
    · exact h.resumeHalted hs l
    · exact hs
  · exact h.abortLane hs l
  · exact hs

theorem laneCommand (h : KeptByCursors P) (hs : P o s) (lane : BitVec 4) (code : BitVec 3) :
    P o (laneCommand s lane (Machine.laneCommandOf code)) := by
  unfold Machine.laneCommand
  split
  · exact h.untouched (h.laneCommandOf hs code _)
  · exact h.untouched hs

/-- A redirected lane stays HALTED (R39). -/
theorem redirectLane (h : KeptByCursors P) (hs : P o s) {l : LaneId} (hstate : (s.lane l).state = .halted)
    (pointer : LAddr) : P o (redirectLane s l pointer) := by
  have hcores := (((sameCores_dropCopy s l).trans (sameCores_release _ l .hop)).trans
    (sameCores_release _ l .src)).trans (sameCores_release _ l .dst)
  have hreleased := h.release l .dst (h.release l .src (h.release l .hop (h.dropCopy (h.opened l hs) l)))
  unfold Machine.redirectLane
  dsimp only
  generalize Machine.release (Machine.release (Machine.release (Machine.dropCopy s l) l .hop) l .src) l .dst = t
    at hcores hreleased
  refine h.closed (h.retarget .walk _ (Set.mem_insert l o) (h.updOpen hreleased)) (Lane.rests_of_awake ?_)
  have hkept := (sameCores_retarget (t.updLane l fun x =>
    { x with
      phase := .load, progress := .cleared pointer, pendingPost := none, wait := none, repeatRecord := none
      portWait := none, haltReason := some .host, resume := some .active }) l .walk pointer.page).state l
  rw [hkept, State.lane_updLane_same]
  exact (congrArg LaneState.atRest ((hcores.state l).trans hstate))

theorem writeRecordPointer (h : KeptByCursors P) (hs : P o s) (v : Half) : P o (writeRecordPointer s v) := by
  unfold Machine.writeRecordPointer
  dsimp only
  split
  · next hstate =>
    split
    · exact h.redirectLane hs hstate _
    · exact h.untouched hs
  · exact h.untouched hs

/-! ### Stream ports -/

theorem frameStartTransmit (h : KeptByCursors P) (hs : P o s) (p : PortId) : P o (frameStartTransmit s p) := by
  unfold Machine.frameStartTransmit
  dsimp only
  split
  · exact h.untouched hs
  · split
    · refine h.releaseLanes ?_ p .tx
      split
      · exact h.setSignal (h.untouched hs) _
      · exact h.untouched hs
    · exact h.untouched hs

theorem frameStart (h : KeptByCursors P) (hs : P o s) (p : PortId) : P o (frameStart s p) := by
  unfold Machine.frameStart
  dsimp only
  refine h.frameStartTransmit (h.untouched (s := if (s.port p).inFrame then frameError s p else s) ?_) p
  split
  · unfold frameError
    split
    · exact h.untouched hs
    · exact hs
  · exact hs

theorem offerReceived (h : KeptByCursors P) (hs : P o s) (p : PortId) (w : Word) : P o (offerReceived s p w) := by
  unfold Machine.offerReceived
  dsimp only
  split
  · exact hs
  · split
    · exact h.untouched hs
    · refine h.releaseLanes ?_ p .rx
      split
      · exact h.setSignal (h.untouched hs) _
      · exact h.untouched hs

theorem frameEnd (h : KeptByCursors P) (hs : P o s) (p : PortId) (sdi : Bool) : P o (frameEnd s p sdi) := by
  unfold Machine.frameEnd
  dsimp only
  split
  · exact h.offerReceived (h.untouched hs) p _
  · exact hs

theorem sckPeriod (h : KeptByCursors P) (hs : P o s) (p : PortId) (sdi : Bool) : P o (sckPeriod s p sdi) := by
  unfold Machine.sckPeriod
  dsimp only
  split
  · exact hs
  · split
    · exact h.untouched hs
    · exact h.frameEnd hs p sdi

theorem discardHeld (h : KeptByCursors P) (hs : P o s) (p : PortId) : P o (discardHeld s p) := by
  unfold Machine.discardHeld
  split
  · split
    · split
      · exact h.untouched hs
      · exact hs
    · exact hs
  · exact hs

theorem writePortConfig (h : KeptByCursors P) (hs : P o s) (p : PortId) (v : Half) : P o (writePortConfig s p v) := by
  have hrx {t : State} (ht : P o t) : P o (disableRx t p) := h.faultWaiters (h.untouched ht) p .rx .src
  have htx {t : State} (ht : P o t) : P o (disableTx t p) := h.faultWaiters (h.discardHeld (h.untouched ht) p) p .tx .dst
  unfold Machine.writePortConfig
  dsimp only
  generalize hc : s.updPort p _ = c
  have hset : P o c := hc ▸ h.untouched hs
  split
  · refine htx ?_
    split
    · exact hrx hset
    · exact hset
  · split
    · exact hrx hset
    · exact hset

end KeptByCursors

end Sys2Proof.Machine
end

section
/-! SUPPORT. The commands one by one: a condition on the cursors and the lookup unit that lookups, shootdowns and resets keep
too is kept by every step. -/

namespace Sys2Proof.Machine

/-- A condition on the cursors and the lookup unit that every operation on them keeps: the shared operations on one lane, and
the lookup's start and completion, the commit of a map entry and the resets. -/
structure KeptByCommands (P : Set LaneId → State → Prop) : Prop extends KeptByCursors P where
  lookupStart : ∀ {s : State}, P ∅ s → P ∅ (lookupStart s)
  lookupCompletion : ∀ {s : State}, P ∅ s → P ∅ (lookupCompletion s)
  commitMapEntry : ∀ {s t : State} {page : BitVec 7} {w : Word}, P ∅ s → commitMapEntry s page w = some t → P ∅ t
  cleared : ∀ {s : State}, s.lanes = Vector.replicate 12 .reset → s.map.queue = [] → s.map.lookup = none → P ∅ s

namespace KeptByCommands

variable {P : Set LaneId → State → Prop} {s t : State}

/-! ### Global commands and the window -/

theorem globalCommandOf (h : KeptByCommands P) (hs : P ∅ s) (code : BitVec 4) : P ∅ (globalCommandOf code s).1 := by
  rcases globalCommandOf_cases code with e | e | e | e | e | e <;> rw [e]
  · unfold startWheel
    split
    · exact hs
    · split
      · exact hs
      · exact h.untouched hs
  · unfold stopWheel
    split
    · exact h.untouched hs
    · exact hs
  · unfold rewindWheel
    split
    · exact hs
    · exact h.untouched hs
  · exact h.cleared rfl rfl rfl
  · unfold eraseMemory
    split
    · exact hs
    · split
      · exact hs
      · exact h.untouched hs
  · exact hs

theorem globalCommand (h : KeptByCommands P) (hs : P ∅ s) (code : BitVec 4) :
    P ∅ (globalCommand s (Machine.globalCommandOf code)) :=
  h.untouched (h.globalCommandOf hs code)

theorem commitItem (h : KeptByCommands P) (hs : P ∅ s) {item : Item32} {w : Word} (ht : commitItem s item w = some t) :
    P ∅ t := by
  cases item with
  | mapEntry page => exact h.commitMapEntry hs ht
  | idleWord p => exact Option.some.inj ht ▸ h.untouched hs
  | aperture a => exact Option.some.inj ht ▸ h.untouched hs
  | slotCount => contradiction
  | beats => contradiction

theorem splitHighWrite (h : KeptByCommands P) (hs : P ∅ s) (item : Item32) (v : Half) :
    P ∅ (splitHighWrite s item v) := by
  unfold Machine.splitHighWrite
  split
  · exact h.untouched hs
  · split
    · exact h.untouched hs
    · split
      · split
        · next hcommit => exact h.untouched (h.commitItem hs hcommit)
        · exact h.untouched hs
      · exact h.untouched hs

theorem splitLowWrite (h : KeptByCommands P) (hs : P ∅ s) (item : Item32) (v : Half) : P ∅ (splitLowWrite s item v) := by
  unfold Machine.splitLowWrite
  split
  · exact h.untouched hs
  · split <;> exact h.untouched hs

theorem popQueue (h : KeptByCommands P) (hs : P ∅ s) : P ∅ (popQueue s) := by
  unfold Machine.popQueue
  split
  · exact h.untouched hs
  · exact h.releaseQueue (h.untouched hs)

theorem writeScheduleEntry (h : KeptByCommands P) (hs : P ∅ s) (t : Table) (e : Fin 32) (v : Half) :
    P ∅ (writeScheduleEntry s t e v) := by
  unfold Machine.writeScheduleEntry
  dsimp only
  split
  · exact h.untouched hs
  · split <;> exact h.untouched hs

theorem writeSlotPeriod (h : KeptByCommands P) (hs : P ∅ s) (v : Half) : P ∅ (writeSlotPeriod s v) := by
  unfold Machine.writeSlotPeriod
  split <;> exact h.untouched hs

theorem writeLaneSelect (h : KeptByCommands P) (hs : P ∅ s) (v : Half) : P ∅ (writeLaneSelect s v) := by
  unfold Machine.writeLaneSelect
  split <;> exact h.untouched hs

theorem writeLaneConfig (h : KeptByCommands P) (hs : P ∅ s) (v : Half) : P ∅ (writeLaneConfig s v) :=
  h.updLane hs fun _ => id

/-- A host write of any item keeps the condition (R174). -/
theorem writeItem (h : KeptByCommands P) (hs : P ∅ s) (i : Item) (offset : WindowOffset) (v : Half) :
    P ∅ (writeItem s i offset v) := by
  unfold Machine.writeItem
  split
  · exact h.globalCommand hs _
  · exact h.untouched hs
  · exact h.untouched hs
  · exact h.untouched hs
  · exact h.setSignals hs v
  · exact h.untouched hs
  · exact h.untouched hs
  · exact h.writeSlotPeriod hs v
  · exact h.laneCommand hs _ _
  · exact h.untouched hs
  · exact h.writeLaneSelect hs v
  · exact h.writeRecordPointer hs v
  · exact h.writeLaneConfig hs v
  · exact h.untouched hs
  · exact h.popQueue hs
  · exact h.writePortConfig hs _ v
  · exact h.untouched hs
  · exact h.untouched hs
  · exact h.untouched hs
  · exact h.writeScheduleEntry hs _ _ v
  · exact h.splitLowWrite hs _ v
  · exact h.splitHighWrite hs _ v
  · exact hs
  · exact h.untouched hs

theorem readItem_map (s : State) (i : Item) : (readItem s i).map = s.map := by
  unfold readItem
  split
  · unfold splitLowRead
    split <;> rfl
  · unfold splitHighRead
    split <;> rfl
  · rfl
  · rfl

theorem hostReading (h : KeptByCommands P) (hs : P ∅ s) (i : Item) : P ∅ (hostReading s fun s => readItem s i) := by
  unfold Machine.hostReading
  split
  · exact h.untouched hs
  · exact h.untouched hs (readItem_map s i) (readItem_kept s i).1

/-! ### Every command and every step -/

theorem clearPassEnd (h : KeptByCommands P) (hs : P ∅ s) : P ∅ (clearPassEnd s) := by
  unfold Machine.clearPassEnd
  split
  · exact h.untouched hs
  · exact hs

theorem resetRelease (h : KeptByCommands P) (hs : P ∅ s) : P ∅ (resetRelease s) := by
  unfold Machine.resetRelease
  split
  · exact h.untouched hs
  · exact hs

theorem unlessReset (hs : P ∅ s) {f : State → State} (hf : P ∅ (f s)) : P ∅ (unlessReset s f) :=
  unlessReset_cases (p := P ∅) hs fun _ => hf

theorem hostAccess (h : KeptByCommands P) (hs : P ∅ s) (offset : WindowOffset) (a : Access) :
    P ∅ (hostAccess s offset a) := by
  cases a with
  | read => exact h.hostReading hs _
  | write v => exact unlessReset (f := fun s => Machine.writeItem s _ _ v) hs (h.writeItem hs _ _ v)

theorem exec (h : KeptByCommands P) (hs : P ∅ s) (c : Instr) : Runs c s (P ∅) := by
  have hquiet {f : State → State} (hmap : (f s).map = s.map) (hlanes : (f s).lanes = s.lanes) :
      P ∅ (Machine.unlessReset s f) := unlessReset hs (h.untouched hs hmap hlanes)
  have hlane {lane : BitVec 4} (code : BitVec 3) :
      P ∅ (Machine.unlessReset s fun s => laneCommand s lane (laneCommandOf code)) :=
    unlessReset hs (h.laneCommand hs lane code)
  have hglobal (code : BitVec 4) :
      P ∅ (Machine.unlessReset s fun s => Machine.globalCommand s (Machine.globalCommandOf code)) :=
    unlessReset hs (h.globalCommand hs code)
  have hport (p : PortId) (v : Half) : P ∅ (Machine.unlessReset s fun s => writePortConfig s p v) :=
    unlessReset hs (h.writePortConfig hs p v)
  have hhigh (item : Item32) (v : Half) : P ∅ (Machine.unlessReset s fun s => Machine.splitHighWrite s item v) :=
    unlessReset hs (h.splitHighWrite hs item v)
  cases c with
  | enable lane => exact ⟨_, rfl, hlane 1⟩
  | disable lane => exact ⟨_, rfl, hlane 2⟩
  | start lane => exact ⟨_, rfl, hlane 3⟩
  | halt lane => exact ⟨_, rfl, hlane 4⟩
  | resume lane => exact ⟨_, rfl, hlane 5⟩
  | abort lane => exact ⟨_, rfl, hlane 6⟩
  | laneCommandUnknown lane code => exact ⟨_, rfl, hlane code⟩
  | wheelStart => exact ⟨_, rfl, hglobal 1⟩
  | wheelStop => exact ⟨_, rfl, hglobal 2⟩
  | wheelRewind => exact ⟨_, rfl, hglobal 3⟩
  | softReset => exact ⟨_, rfl, hglobal 4⟩
  | erase => exact ⟨_, rfl, hglobal 5⟩
  | globalCommandUnknown code => exact ⟨_, rfl, hglobal code⟩
  | clearPassEnd => exact ⟨_, rfl, unlessReset hs (h.clearPassEnd hs)⟩
  | resetAssert => exact ⟨_, rfl, h.cleared rfl rfl rfl⟩
  | resetRelease => exact ⟨_, rfl, h.resetRelease hs⟩
  | recordPointerWrite v => exact ⟨_, rfl, unlessReset hs (h.writeRecordPointer hs v)⟩
  | laneConfigWrite v => exact ⟨_, rfl, unlessReset hs (h.writeLaneConfig hs v)⟩
  | laneSelectWrite v => exact ⟨_, rfl, unlessReset hs (h.writeLaneSelect hs v)⟩
  | recordWordsRead => exact ⟨_, rfl, h.hostReading hs .recordWords⟩
  | scheduleEntryWrite table e v => exact ⟨_, rfl, unlessReset hs (h.writeScheduleEntry hs table e v)⟩
  | slotPeriodWrite v => exact ⟨_, rfl, unlessReset hs (h.writeSlotPeriod hs v)⟩
  | tableSelectWrite v => exact ⟨_, rfl, hquiet rfl rfl⟩
  | splitLowRead item => exact ⟨_, rfl, h.hostReading hs (.split item .low)⟩
  | splitHighRead item => exact ⟨_, rfl, h.hostReading hs (.split item .high)⟩
  | splitLowWrite item v => exact ⟨_, rfl, unlessReset hs (h.splitLowWrite hs item v)⟩
  | mapEntryCommit page v => exact ⟨_, rfl, hhigh (.mapEntry page) v⟩
  | apertureWordCommit word v => exact ⟨_, rfl, hhigh (.aperture word) v⟩
  | portIdleWordCommit p v => exact ⟨_, rfl, hhigh (.idleWord p) v⟩
  | aperturePageWrite v => exact ⟨_, rfl, hquiet rfl rfl⟩
  | signalSet v => exact ⟨_, rfl, unlessReset hs (h.setSignals hs v)⟩
  | signalClear v => exact ⟨_, rfl, hquiet rfl rfl⟩
  | queuePop v => exact ⟨_, rfl, unlessReset hs (h.popQueue hs)⟩
  | queueThresholdWrite v => exact ⟨_, rfl, hquiet rfl rfl⟩
  | intStatusWrite v => exact ⟨_, rfl, hquiet rfl rfl⟩
  | intEnableWrite v => exact ⟨_, rfl, hquiet rfl rfl⟩
  | portRxEnable p v => exact ⟨_, rfl, hport p _⟩
  | portTxEnable p v => exact ⟨_, rfl, hport p _⟩
  | portRxDisable p v => exact ⟨_, rfl, hport p _⟩
  | portTxDisable p v => exact ⟨_, rfl, hport p _⟩
  | portStatusWrite p v => exact ⟨_, rfl, hquiet rfl rfl⟩
  | portCounterWrite p counter v => exact ⟨_, rfl, hquiet rfl rfl⟩
  | registerWrite offset v => exact ⟨_, rfl, h.hostAccess hs offset (.write v)⟩
  | unusedOffsetAccess offset a => exact ⟨_, rfl, h.hostAccess hs offset a⟩
  | slotTick => exact ⟨_, rfl, unlessReset hs (h.slotTick hs)⟩
  | waitTimeout l => exact ⟨_, rfl, unlessReset hs (h.waitTimeout hs l)⟩
  | recordLoad words =>
    exact ⟨_, rfl, hquiet (by rw [recordLoad_frame]) (by rw [recordLoad_frame])⟩
  | cellRead => exact ⟨_, rfl, hquiet (by rw [cellRead_frame]) (by rw [cellRead_frame])⟩
  | wordStep part => exact ⟨_, rfl, hquiet (by rw [wordStep_frame]) (by rw [wordStep_frame])⟩
  | beatEnd => exact ⟨_, rfl, unlessReset hs (h.beatEnd hs)⟩
  | lookupStart => exact ⟨_, rfl, unlessReset hs (h.lookupStart hs)⟩
  | lookupCompletion => exact ⟨_, rfl, unlessReset hs (h.lookupCompletion hs)⟩
  | frameStart p => exact ⟨_, rfl, unlessReset hs (h.frameStart hs p)⟩
  | frameEnd p sdi => exact ⟨_, rfl, unlessReset hs (h.frameEnd hs p sdi)⟩
  | sckPeriod p sdi => exact ⟨_, rfl, unlessReset hs (h.sckPeriod hs p sdi)⟩

/-- Every step keeps the condition: it is a command or a timebase tick. -/
theorem step (h : KeptByCommands P) (hs : P ∅ s) (ht : step s = .next t) : P ∅ t := by
  unfold Machine.step at ht
  split at ht
  · next c rest _ =>
    obtain ⟨u, hu, hkept⟩ := h.exec (s := { s with pending := rest }) (h.untouched hs) c
    exact Host.Outcome.next.inj (hu.symm.trans ht) ▸ hkept
  · exact Host.Outcome.next.inj ht ▸ unlessReset hs (h.timebaseTick hs)

end KeptByCommands

end Sys2Proof.Machine
end

section
/-! SUPPORT. The shootdown of a page in full: what it makes of each lane, of the lookup queue and of the lookup in progress
(R112 to R114). -/

namespace Sys2Proof.Machine

/-! ### One lane -/

/-- Whether a cursor is MAPPED on a page, so that the page's shootdown re-pends it (R112). -/
def Cursor.mappedOn (c : Cursor) (page : BitVec 7) : Bool := c.isMapped && c.page == page

theorem Cursor.shot_eq (c : Cursor) (page : BitVec 7) :
    c.shot page = if c.mappedOn page then ⟨page, .pending⟩ else c := rfl

theorem Cursor.shot_of_not_mappedOn {c : Cursor} {page : BitVec 7} (h : c.mappedOn page = false) : c.shot page = c :=
  if_neg (Bool.eq_false_iff.mp h)

theorem Cursor.shot_of_mappedOn {c : Cursor} {page : BitVec 7} (h : c.mappedOn page = true) :
    c.shot page = ⟨page, .pending⟩ := if_pos h

/-- A lane with a cursor shot, before its block reasons are looked at. -/
def Lane.shootCursor (x : Lane) (page : BitVec 7) (r : Role) : Lane := x.setCursor r ((x.cursor r).shot page)

/-- The block reason MAP of a lane that a cursor it needs has left (R114). -/
def Lane.unmapped (x : Lane) (inBeat : Bool) : Lane :=
  match x.state with
  | .active => if inBeat then x else { x with state := .blocked, reasons := ⟨true, false, false⟩ }
  | .blocked => { x with reasons := { x.reasons with map := true } }
  | _ => x

/-- A lane that takes a cursor that has left MAPPED (R25, R114). -/
def Lane.losingMap (x : Lane) (inBeat : Bool) : Lane := if x.neededMapped then x else x.unmapped inBeat

/-- What the shootdown of one cursor makes of its lane (R112, R114). -/
def Lane.shootRole (page : BitVec 7) (inBeat : Bool) (x : Lane) (r : Role) : Lane :=
  if (x.cursor r).mappedOn page then (x.shootCursor page r).losingMap inBeat else x

theorem Lane.unmapped_parts (x : Lane) (inBeat : Bool) :
    (x.unmapped inBeat).cursor = x.cursor ∧ (x.unmapped inBeat).phase = x.phase := by
  unfold Lane.unmapped
  split
  · split <;> exact ⟨rfl, rfl⟩
  · exact ⟨rfl, rfl⟩
  · exact ⟨rfl, rfl⟩

theorem Lane.neededMapped_congr {x y : Lane} (hcursor : y.cursor = x.cursor) (hphase : y.phase = x.phase) :
    y.neededMapped = x.neededMapped := by
  unfold Lane.neededMapped
  rw [hcursor, hphase]

theorem Lane.losingMap_parts (x : Lane) (inBeat : Bool) :
    (x.losingMap inBeat).cursor = x.cursor ∧ (x.losingMap inBeat).phase = x.phase := by
  unfold Lane.losingMap
  split
  · exact ⟨rfl, rfl⟩
  · exact x.unmapped_parts inBeat

theorem Lane.shootCursor_cursor (x : Lane) (page : BitVec 7) (r q : Role) :
    (x.shootCursor page r).cursor q = if q = r then (x.cursor q).shot page else x.cursor q := by
  unfold Lane.shootCursor
  split
  · next e => rw [e, Lane.cursor_setCursor_same]
  · next e => exact Lane.cursor_setCursor_other x _ e

@[simp] theorem Lane.shootCursor_phase (x : Lane) (page : BitVec 7) (r : Role) :
    (x.shootCursor page r).phase = x.phase := by
  cases r <;> rfl

theorem Lane.shootCursor_of_not_mappedOn {x : Lane} {page : BitVec 7} {r : Role}
    (h : (x.cursor r).mappedOn page = false) : x.shootCursor page r = x := by
  rw [Lane.shootCursor, Cursor.shot_of_not_mappedOn h, Lane.setCursor_self]

/-- A shot cursor is not MAPPED if it was not before. -/
theorem Cursor.shot_isMapped {c : Cursor} {page : BitVec 7} (h : c.isMapped = false) : (c.shot page).isMapped = false := by
  rw [Cursor.shot_of_not_mappedOn (by simp [Cursor.mappedOn, h]), h]

/-- A shot lane does not regain a cursor that it needs. -/
theorem Lane.shootCursor_neededMapped {x : Lane} (h : x.neededMapped = false) (page : BitVec 7) (r : Role) :
    (x.shootCursor page r).neededMapped = false := by
  unfold Lane.neededMapped at h ⊢
  rw [List.all_eq_false] at h ⊢
  obtain ⟨q, hq, hunmapped⟩ := h
  refine ⟨q, by rwa [Lane.shootCursor_phase], ?_⟩
  rw [Bool.not_eq_true] at hunmapped ⊢
  rw [Lane.shootCursor_cursor]
  split
  · exact Cursor.shot_isMapped hunmapped
  · exact hunmapped

theorem Lane.losingMap_of_mapped {x : Lane} (h : x.neededMapped = true) (inBeat : Bool) : x.losingMap inBeat = x := if_pos h

theorem Lane.losingMap_of_unmapped {x : Lane} (h : x.neededMapped = false) (inBeat : Bool) :
    x.losingMap inBeat = x.unmapped inBeat := if_neg (Bool.eq_false_iff.mp h)

theorem Lane.unmapped_unmapped (x : Lane) (inBeat : Bool) : (x.unmapped inBeat).unmapped inBeat = x.unmapped inBeat := by
  obtain ⟨state, reasons⟩ := x
  cases state <;> cases inBeat <;> rfl

theorem Lane.unmapped_setCursor_unmapped (x : Lane) (inBeat : Bool) (r : Role) (c : Cursor) :
    ((x.unmapped inBeat).setCursor r c).unmapped inBeat = (x.setCursor r c).unmapped inBeat := by
  obtain ⟨state, reasons⟩ := x
  cases state <;> cases inBeat <;> cases r <;> rfl

theorem Lane.unmapped_neededMapped {x : Lane} (h : x.neededMapped = false) (inBeat : Bool) :
    (x.unmapped inBeat).neededMapped = false :=
  (Lane.neededMapped_congr (x.unmapped_parts inBeat).1 (x.unmapped_parts inBeat).2).trans h

theorem Lane.losingMap_losingMap (x : Lane) (inBeat : Bool) :
    (x.losingMap inBeat).losingMap inBeat = x.losingMap inBeat := by
  cases h : x.neededMapped with
  | true => rw [Lane.losingMap_of_mapped h, Lane.losingMap_of_mapped h]
  | false =>
    rw [Lane.losingMap_of_unmapped h, Lane.losingMap_of_unmapped (Lane.unmapped_neededMapped h inBeat),
      Lane.unmapped_unmapped]

/-- The block reasons that a lane takes after a shot do not turn on those it has taken before it (R114). -/
theorem Lane.losingMap_shootCursor_losingMap (x : Lane) (page : BitVec 7) (inBeat : Bool) (r : Role) :
    ((x.losingMap inBeat).shootCursor page r).losingMap inBeat = (x.shootCursor page r).losingMap inBeat := by
  cases h : x.neededMapped with
  | true => rw [Lane.losingMap_of_mapped h]
  | false =>
    have hkept := Lane.shootCursor_neededMapped (Lane.unmapped_neededMapped h inBeat) page r
    rw [Lane.losingMap_of_unmapped h, Lane.losingMap_of_unmapped hkept,
      Lane.losingMap_of_unmapped (Lane.shootCursor_neededMapped h page r), Lane.shootCursor, (x.unmapped_parts inBeat).1]
    exact x.unmapped_setCursor_unmapped inBeat r _

/-- A lane with the cursors of several roles shot, before its block reasons are looked at. -/
def Lane.shootCursors (x : Lane) (page : BitVec 7) (rs : List Role) : Lane := rs.foldl (fun x r => x.shootCursor page r) x

theorem Lane.losingMap_shootCursors_losingMap (page : BitVec 7) (inBeat : Bool) : ∀ (rs : List Role) (x : Lane),
    ((x.losingMap inBeat).shootCursors page rs).losingMap inBeat = (x.shootCursors page rs).losingMap inBeat
  | [], x => x.losingMap_losingMap inBeat
  | r :: rs, x => calc
      (((x.losingMap inBeat).shootCursor page r).shootCursors page rs).losingMap inBeat
        = ((((x.losingMap inBeat).shootCursor page r).losingMap inBeat).shootCursors page rs).losingMap inBeat :=
          (Lane.losingMap_shootCursors_losingMap page inBeat rs _).symm
      _ = (((x.shootCursor page r).losingMap inBeat).shootCursors page rs).losingMap inBeat := by
          rw [Lane.losingMap_shootCursor_losingMap]
      _ = ((x.shootCursor page r).shootCursors page rs).losingMap inBeat :=
          Lane.losingMap_shootCursors_losingMap page inBeat rs _

theorem Lane.shootCursors_of_not_mappedOn {page : BitVec 7} : ∀ {rs : List Role} {x : Lane},
    (rs.any fun r => (x.cursor r).mappedOn page) = false → x.shootCursors page rs = x
  | [], _, _ => rfl
  | r :: rs, x, h => by
    rw [List.any_cons, Bool.or_eq_false_iff] at h
    rw [Lane.shootCursors, List.foldl_cons, Lane.shootCursor_of_not_mappedOn h.1]
    exact Lane.shootCursors_of_not_mappedOn h.2

/-- The shootdown of several cursors of a lane, one after the other (R112, R114). -/
theorem Lane.foldl_shootRole (page : BitVec 7) (inBeat : Bool) : ∀ (rs : List Role) (x : Lane),
    rs.foldl (Lane.shootRole page inBeat) x =
      if (rs.any fun r => (x.cursor r).mappedOn page) then (x.shootCursors page rs).losingMap inBeat else x
  | [], x => rfl
  | r :: rs, x => by
    rw [List.foldl_cons, Lane.foldl_shootRole page inBeat rs, List.any_cons]
    cases h : (x.cursor r).mappedOn page with
    | false =>
      have hsame : Lane.shootRole page inBeat x r = x := if_neg (Bool.eq_false_iff.mp h)
      have hrest : x.shootCursors page (r :: rs) = x.shootCursors page rs := by
        rw [Lane.shootCursors, List.foldl_cons, Lane.shootCursor_of_not_mappedOn h]
        rfl
      rw [hsame, hrest, Bool.false_or]
    | true =>
      have hshot : Lane.shootRole page inBeat x r = (x.shootCursor page r).losingMap inBeat := if_pos h
      rw [hshot, Bool.true_or, if_pos rfl, (Lane.losingMap_parts _ inBeat).1]
      split
      · exact Lane.losingMap_shootCursors_losingMap page inBeat rs _
      · next hnone =>
        have hdone := Lane.shootCursors_of_not_mappedOn (Bool.not_eq_true _ ▸ hnone)
        exact congrArg (Lane.losingMap · inBeat) hdone.symm

/-- The shootdown of a lane's four cursors in role order is what the statements say of it (R112, R114). -/
theorem Lane.shot_eq (x : Lane) (page : BitVec 7) (inBeat : Bool) :
    x.shot page inBeat = allRoles.foldl (Lane.shootRole page inBeat) x := by
  have hshot : x.shootCursors page allRoles =
    { x with walk := x.walk.shot page, hop := x.hop.shot page, src := x.src.shot page, dst := x.dst.shot page } := rfl
  rw [Lane.foldl_shootRole, Lane.shot, ← hshot]
  dsimp only
  cases h : allRoles.any fun r => (x.cursor r).mappedOn page with
  | false =>
    rw [Lane.shootCursors_of_not_mappedOn h]
    simp
  | true =>
    have hne : x.shootCursors page allRoles ≠ x := by
      intro e
      obtain ⟨r, -, hr⟩ := List.any_eq_true.mp h
      have hcursor : (x.shootCursors page allRoles).cursor r = (x.cursor r).shot page := by
        rw [hshot]
        cases r <;> rfl
      rw [e, Cursor.shot_of_mappedOn hr] at hcursor
      rw [hcursor] at hr
      simp [Cursor.mappedOn, Cursor.isMapped] at hr
    simp only [hne, false_or, if_true, Lane.losingMap, Lane.unmapped]
    congr 1

/-! ### The lookup unit and the lanes -/

theorem loseMapping_eq (s : State) (l : LaneId) : loseMapping s l = s.setLane l ((s.lane l).losingMap (s.ownBeat l)) := by
  unfold loseMapping
  dsimp only
  cases h : (s.lane l).neededMapped with
  | true => rw [if_pos rfl, Lane.losingMap_of_mapped h, State.setLane_self]
  | false =>
    rw [if_neg Bool.false_ne_true, Lane.losingMap_of_unmapped h]
    unfold Lane.unmapped
    cases hstate : (s.lane l).state <;> dsimp only
    case active =>
      split
      · rw [State.setLane_self]
      · rw [settle_empty_eq, Lane.enterActive, if_neg (Bool.eq_false_iff.mp h)]
    case blocked => simp only [State.updLane, hstate]
    all_goals rw [State.setLane_self]

/-- The shootdown of one cursor, in full (R112, R114). -/
theorem shootCursor_eq (page : BitVec 7) (s : State) (l : LaneId) (r : Role) : shootCursor page s l r =
    (s.setLane l (Lane.shootRole page (s.ownBeat l) (s.lane l) r)).withMap { s.map with
      queue := s.map.queue ++ if ((s.lane l).cursor r).mappedOn page then [(l, r)] else [] } := by
  unfold shootCursor Lane.shootRole
  change (if ((s.lane l).cursor r).mappedOn page = true then _ else _) = _
  split
  · next h =>
    rw [loseMapping_eq, State.enqueue_eq]
    simp only [State.withMap_lane, State.lane_setLane_same, State.withMap_setLane, State.setLane_setLane,
      Lane.shootCursor, Cursor.shot_of_mappedOn h]
    rfl
  · rw [State.setLane_self, List.append_nil]
    rfl

/-- The shootdown of cursors of one lane, role by role (R112). -/
theorem foldl_shootCursor (page : BitVec 7) (l : LaneId) : ∀ {rs : List Role} (s : State), rs.Nodup →
    rs.foldl (fun s r => shootCursor page s l r) s =
      (s.setLane l (rs.foldl (Lane.shootRole page (s.ownBeat l)) (s.lane l))).withMap { s.map with
        queue := s.map.queue ++ (rs.filter fun r => ((s.lane l).cursor r).mappedOn page).map fun r => (l, r) }
  | [], s, _ => by
    simp only [List.foldl_nil, State.setLane_self, List.filter_nil, List.map_nil, List.append_nil]
    rfl
  | r :: rs, s, h => by
    obtain ⟨hr, hrs⟩ := List.nodup_cons.mp h
    have hkept : ∀ q ∈ rs, ((Lane.shootRole page (s.ownBeat l) (s.lane l) r).cursor q) = (s.lane l).cursor q := by
      intro q hq
      have hne : q ≠ r := fun e => hr (e ▸ hq)
      unfold Lane.shootRole
      split
      · rw [(Lane.losingMap_parts _ _).1, Lane.shootCursor_cursor, if_neg hne]
      · rfl
    rw [List.foldl_cons, foldl_shootCursor page l _ hrs, shootCursor_eq]
    simp only [State.withMap_lane, State.lane_setLane_same, State.withMap_setLane, State.setLane_setLane,
      State.withMap_withMap, State.withMap_map]
    rw [List.filter_congr fun q hq => by rw [hkept q hq]]
    cases hc : ((s.lane l).cursor r).mappedOn page <;> simp [hc] <;> rfl

/-- What the shootdown of a page makes of the lanes of a list (R112, R114). -/
structure ShotLanes (page : BitVec 7) (ls : List LaneId) (s t : State) : Prop where
  lane : ∀ k, t.lane k = if k ∈ ls then (s.lane k).shot page (s.ownBeat k) else s.lane k
  map : t.map = { s.map with queue := s.map.queue ++ ls.flatMap fun l => (s.lane l).shotCursors l page }
  rest : t = { s with lanes := t.lanes, map := t.map }

theorem shotLanes_foldl (page : BitVec 7) : ∀ {ls : List LaneId} (s : State), ls.Nodup →
    ShotLanes page ls s (ls.foldl (fun s l => allRoles.foldl (fun s r => shootCursor page s l r) s) s)
  | [], s, _ => ⟨fun k => by simp, by simp, rfl⟩
  | l :: ls, s, h => by
    obtain ⟨hl, hls⟩ := List.nodup_cons.mp h
    rw [List.foldl_cons, foldl_shootCursor page l s (by decide), ← Lane.shot_eq]
    generalize hu : (s.setLane l ((s.lane l).shot page (s.ownBeat l))).withMap _ = u
    have hrest := shotLanes_foldl page u hls
    have hbeat : u.ownBeat = s.ownBeat := by
      rw [← hu]
      rfl
    have hself : u.lane l = (s.lane l).shot page (s.ownBeat l) := by
      rw [← hu, State.withMap_lane, State.lane_setLane_same]
    have hother : ∀ k, k ≠ l → u.lane k = s.lane k := fun k hk => by
      rw [← hu, State.withMap_lane, State.lane_setLane_other _ _ hk]
    refine ⟨fun k => ?_, ?_, ?_⟩
    · rw [hrest.lane, hbeat]
      by_cases e : k = l
      · rw [e, if_neg hl, if_pos (List.mem_cons_self), hself]
      · simp [hother k e, e]
    · rw [hrest.map, List.flatMap_cons]
      have hqueue : ls.flatMap (fun k => (u.lane k).shotCursors k page) =
          ls.flatMap fun k => (s.lane k).shotCursors k page :=
        List.flatMap_congr fun k hk => by rw [hother k fun e => hl (e ▸ hk)]
      rw [hqueue, ← hu, State.withMap_map, List.append_assoc]
      rfl
    · rw [hrest.rest, ← hu]
      rfl

/-! ### The lookup in progress, and the whole shootdown -/

/-- The lookup in progress after the shootdown of a page (R113). -/
def State.lookupShot (s : State) (page : BitVec 7) : Option Lookup :=
  s.map.lookup.map fun k =>
    if k.page = page ∨ (((s.lane k.lane).cursor k.role).status = .inFlight ∧
      ((s.lane k.lane).cursor k.role).page = page) then { k with disposition := k.disposition.toStale }
    else k

theorem staleOnShootdown_eq (s : State) (page : BitVec 7) :
    staleOnShootdown s page = s.withMap { s.map with lookup := s.lookupShot page } := by
  have hkept : ∀ k, k = s.map.lookup → s = s.withMap { s.map with lookup := k } := by
    rintro _ rfl
    rfl
  unfold staleOnShootdown State.lookupShot
  cases hk : s.map.lookup with
  | none => exact hkept none hk.symm
  | some k =>
    dsimp only
    rw [Option.map_some]
    split
    · simp only [State.markStale, hk, Option.map_some]
      rfl
    · exact hkept (some k) hk.symm

/-- The shootdown of a page, in full (R112 to R114). -/
structure PageShot (page : BitVec 7) (s t : State) : Prop where
  lane : ∀ l, t.lane l = (s.lane l).shot page (s.ownBeat l)
  entries : t.map.entries = s.map.entries
  queue : t.map.queue = s.map.queue ++ allLanes.flatMap fun l => (s.lane l).shotCursors l page
  lookup : t.map.lookup = s.lookupShot page
  rest : t = { s with lanes := t.lanes, map := t.map }

theorem pageShot_shootdown (s : State) (page : BitVec 7) : PageShot page s (shootdown s page) := by
  have hshot := shotLanes_foldl page (s.withMap { s.map with lookup := s.lookupShot page })
    (show allLanes.Nodup by decide)
  rw [← staleOnShootdown_eq] at hshot
  change ShotLanes page allLanes _ (shootdown s page) at hshot
  rw [staleOnShootdown_eq] at hshot
  refine ⟨fun l => ?_, ?_, ?_, ?_, ?_⟩
  · rw [hshot.lane, if_pos (mem_allLanes l)]
    rfl
  · rw [hshot.map]
    rfl
  · rw [hshot.map]
    rfl
  · rw [hshot.map]
    rfl
  · exact hshot.rest

/-- The page map with one entry written (R103). -/
def State.withEntry (s : State) (page : BitVec 7) (e : MapEntry) : State :=
  s.withMap { s.map with entries := s.map.entries.set page.toNat e page.isLt }

@[simp] theorem State.withEntry_lane (s : State) (page : BitVec 7) (e : MapEntry) (l : LaneId) :
    (s.withEntry page e).lane l = s.lane l := rfl

theorem withEntry_mapEntry (s : State) (page q : BitVec 7) (e : MapEntry) :
    (s.withEntry page e).mapEntry q = if q = page then e else s.mapEntry q := by
  have hget : (s.withEntry page e).mapEntry q = (s.map.entries.set page.toNat e page.isLt)[q.toNat]'q.isLt := rfl
  rw [hget, Vector.getElem_set]
  by_cases h : q = page
  · simp [h]
  · have hne : ¬ page.toNat = q.toNat := fun eq => h (BitVec.eq_of_toNat_eq eq.symm)
    rw [if_neg h, if_neg hne]
    rfl

theorem commitMapEntry_of_entry {w : Word} {e : MapEntry} (h : MapEntry.ofWord w = some e) (s : State) (page : BitVec 7) :
    commitMapEntry s page w = some (shootdown (s.withEntry page e) page) := by
  unfold commitMapEntry
  rw [h]
  rfl

end Sys2Proof.Machine
end

section
/-! CERTIFICATE. The commit of a map entry with its shootdown (R103, R112 to R114, R164); O21. -/

namespace Sys2Proof.Machine

/-! ### The entry a written word spells -/

/-- The entry that the fields of a written word spell, with its target kind (R102, 11.3). -/
def MapEntry.written (v low : Half) (kind : TargetKind) : MapEntry :=
  { valid := v.getLsbD 15, kind := kind, read := v.getLsbD 11, write := v.getLsbD 10
    port := (v.extractLsb' 8 2).toFin, page := v.extractLsb' 0 6, mask := low.extractLsb' 0 12 }

theorem Word.extractLsb'_high (v low : Half) (k n : Nat) (h : 16 ≤ k) :
    (Word.ofHalves v low).extractLsb' k n = v.extractLsb' (k - 16) n := by
  ext i hi
  simp only [BitVec.getElem_extractLsb', Word.ofHalves, BitVec.getLsbD_append]
  rw [if_neg (by omega)]
  congr 1
  omega

theorem Word.extractLsb'_low (v low : Half) (n : Nat) (h : n ≤ 16) :
    (Word.ofHalves v low).extractLsb' 0 n = low.extractLsb' 0 n := by
  ext i hi
  simp only [BitVec.getElem_extractLsb', Word.ofHalves, BitVec.getLsbD_append]
  rw [if_pos (by omega)]

theorem Word.getLsbD_high (v low : Half) (k : Nat) (h : 16 ≤ k) :
    (Word.ofHalves v low).getLsbD k = v.getLsbD (k - 16) := by
  simp only [Word.ofHalves, BitVec.getLsbD_append]
  rw [if_neg (by omega)]

/-- A written word spells an entry unless its target kind code is the unassigned one (R103). -/
theorem MapEntry.ofWord_halves (v low : Half) : MapEntry.ofWord (Word.ofHalves v low) =
    if v.extractLsb' 12 2 = 3 then none
    else some (.written v low
      (if v.extractLsb' 12 2 = 0 then .memory else if v.extractLsb' 12 2 = 1 then .portRx else .portTx)) := by
  have hkind : (Word.ofHalves v low).extractLsb' 28 2 = v.extractLsb' 12 2 :=
    Word.extractLsb'_high v low 28 2 (by decide)
  have hentry : ∀ kind : TargetKind,
      ({ valid := (Word.ofHalves v low).getLsbD 31, kind := kind, read := (Word.ofHalves v low).getLsbD 27
         write := (Word.ofHalves v low).getLsbD 26, port := ((Word.ofHalves v low).extractLsb' 24 2).toFin
         page := (Word.ofHalves v low).extractLsb' 16 6, mask := (Word.ofHalves v low).extractLsb' 0 12 } : MapEntry) =
      .written v low kind := fun kind => by
    rw [Word.getLsbD_high _ _ 31 (by decide), Word.getLsbD_high _ _ 27 (by decide), Word.getLsbD_high _ _ 26 (by decide),
      Word.extractLsb'_high _ _ 24 2 (by decide), Word.extractLsb'_high _ _ 16 6 (by decide),
      Word.extractLsb'_low _ _ 12 (by decide)]
    rfl
  unfold MapEntry.ofWord
  dsimp only
  simp only [hentry, hkind]
  generalize v.extractLsb' 12 2 = code
  have hcode : code = 0 ∨ code = 1 ∨ code = 2 ∨ code = 3 := by
    revert code
    decide
  rcases hcode with rfl | rfl | rfl | rfl <;> rfl

/-! ### The commit -/

theorem exec_mapEntryCommit {s : State} (hpin : s.resetPin = false) (page : BitVec 7) (v : Half) :
    exec (.mapEntryCommit page v) s = .next (splitHighWrite s (.mapEntry page) v) :=
  congrArg Host.Outcome.next (unlessReset_run hpin _)

/-! A write of the high half of a map entry, by the latch and by what the entry makes of the word (R164). -/

theorem splitHighWrite_mapEntry_unlatched {s : State} {page : BitVec 7} (h : latchedLow s (.mapEntry page) = none)
    (v : Half) :
    splitHighWrite s (.mapEntry page) v = s.refuse .splitOrder (item32Offset (.mapEntry page) .high) := by
  simp [splitHighWrite, item32ReadOnly, refusedClearing, item32IsAperture, h]

theorem splitHighWrite_mapEntry_refused {s : State} {page : BitVec 7} {v low : Half}
    (h : latchedLow s (.mapEntry page) = some low) (hcommit : commitMapEntry s page (Word.ofHalves v low) = none) :
    splitHighWrite s (.mapEntry page) v = s.refuse .badTarget (item32Offset (.mapEntry page) .high) := by
  simp [splitHighWrite, item32ReadOnly, refusedClearing, item32IsAperture, h, commitItem, hcommit]

theorem splitHighWrite_mapEntry_taken {s t : State} {page : BitVec 7} {v low : Half}
    (h : latchedLow s (.mapEntry page) = some low) (hcommit : commitMapEntry s page (Word.ofHalves v low) = some t) :
    splitHighWrite s (.mapEntry page) v = { t with window := { t.window with writeLatch := none } } := by
  simp [splitHighWrite, item32ReadOnly, refusedClearing, item32IsAperture, h, commitItem, hcommit]

/-- Settles O21, from the latch, the entry that the written word spells, and the shootdown in full. -/
theorem mapEntryCommitRunsTheShootdown : Obligations.MapEntryCommitRunsTheShootdown := by
  intro s page v hpin
  have hlatched : ∀ low, s.window.writeLatch = some ⟨low, .mapEntry page⟩ →
      latchedLow s (.mapEntry page) = some low := fun low h => by
    simp [latchedLow, h, item32Tag]
  refine ⟨fun hlatch => ?_, fun low hlatch hcode => ?_, fun low hlatch hcode => ?_⟩
  · have hnone : latchedLow s (.mapEntry page) = none := by
      unfold latchedLow
      split
      · next k hk => exact if_neg (hlatch k hk)
      · rfl
    rw [exec_mapEntryCommit hpin, splitHighWrite_mapEntry_unlatched hnone]
  · have hrefused : commitMapEntry s page (Word.ofHalves v low) = none := by
      rw [commitMapEntry, MapEntry.ofWord_halves, if_pos hcode]
    rw [exec_mapEntryCommit hpin, splitHighWrite_mapEntry_refused (hlatched low hlatch) hrefused]
  · have hentry := MapEntry.ofWord_halves v low
    rw [if_neg hcode] at hentry
    have hshot := pageShot_shootdown (s.withEntry page (.written v low
      (if v.extractLsb' 12 2 = 0 then .memory else if v.extractLsb' 12 2 = 1 then .portRx else .portTx))) page
    refine ⟨_, exec_mapEntryCommit hpin page v, ?_⟩
    rw [splitHighWrite_mapEntry_taken (hlatched low hlatch) (commitMapEntry_of_entry hentry s page)]
    generalize he : MapEntry.written v low _ = e at hshot ⊢
    generalize shootdown (s.withEntry page e) page = u at hshot ⊢
    have hmap : ∀ q, u.mapEntry q = (s.withEntry page e).mapEntry q := fun q => by
      unfold State.mapEntry
      rw [hshot.entries]
    refine ⟨?_, fun q hq => ?_, hshot.lane, hshot.queue, hshot.lookup, ?_⟩
    · exact (hmap page).trans ((withEntry_mapEntry s page page e).trans ((if_pos rfl).trans he.symm))
    · exact (hmap q).trans ((withEntry_mapEntry s page q e).trans (if_neg hq))
    · have hrest := hshot.rest
      cases u
      rw [hrest]
      rfl

end Sys2Proof.Machine
end

section
/-! SUPPORT. A lookup completion by the disposition of the lookup in progress and by the checks (R109 to R111). -/

namespace Sys2Proof.Machine

/-- The state with the map unit free (R109). -/
def State.freed (s : State) : State := s.withMap { s.map with lookup := none }

@[simp] theorem State.freed_lane (s : State) (l : LaneId) : s.freed.lane l = s.lane l := rfl

theorem lookupCompletion_free {s : State} (h : s.map.lookup = none) : lookupCompletion s = s := by
  simp only [lookupCompletion, h]

section
variable {s : State} {k : Lookup} (hk : s.map.lookup = some k)
include hk

theorem lookupCompletion_stale (hd : k.disposition = .stale) : lookupCompletion s =
    s.freed.enqueue k.lane k.role ((s.lane k.lane).cursor k.role).page := by
  simp only [lookupCompletion, hk, hd]
  rfl

theorem lookupCompletion_passed (hd : k.disposition = .live)
    (hcheck : (s.mapEntry k.page).check k.lane k.role = none) : lookupCompletion s =
    takeMapping (s.freed.updLane k.lane fun x =>
      x.setCursor k.role ⟨k.page, .mapped (s.mapEntry k.page).translation⟩) k.lane := by
  simp only [lookupCompletion, hk, hd, hcheck]
  rfl

theorem lookupCompletion_failed (hd : k.disposition = .live) {cause : FaultCause}
    (hcheck : (s.mapEntry k.page).check k.lane k.role = some cause) : lookupCompletion s =
    failLookup s.freed k.lane k.role cause := by
  simp only [lookupCompletion, hk, hd, hcheck]
  rfl

end

end Sys2Proof.Machine
end

section
/-! CERTIFICATE. Every step keeps each MAPPED cursor in agreement with the page map (R104, R109, R112, R113); O58. -/

namespace Sys2Proof.Machine

/-! ### One cursor -/

/-- A cursor that is not MAPPED, or that holds the translation its page's entry gives and passes that entry's checks (R109). -/
def State.CursorAgrees (s : State) (l : LaneId) (r : Role) (c : Cursor) : Prop :=
  ∀ target, c.status = .mapped target → (s.mapEntry c.page).check l r = none ∧ target = (s.mapEntry c.page).translation

theorem State.cursorAgrees_of_not_mapped (s : State) (l : LaneId) (r : Role) {c : Cursor} (h : c.isMapped = false) :
    s.CursorAgrees l r c := by
  intro target htarget
  simp [Cursor.isMapped, htarget] at h

theorem State.cursorsAgree_iff {s : State} : s.cursorsAgree ↔ ∀ l r, s.CursorAgrees l r ((s.lane l).cursor r) := Iff.rfl

/-- A cursor agrees with the page map as far as its own entry is as before. -/
theorem State.CursorAgrees.congr {s t : State} {l : LaneId} {r : Role} {c : Cursor} (h : s.CursorAgrees l r c)
    (hentry : t.mapEntry c.page = s.mapEntry c.page) : t.CursorAgrees l r c := by
  unfold State.CursorAgrees
  rw [hentry]
  exact h

theorem State.mapEntry_congr {s t : State} (h : t.map.entries = s.map.entries) (page : BitVec 7) :
    t.mapEntry page = s.mapEntry page := by
  unfold State.mapEntry
  rw [h]

/-- A change of one cursor to one that agrees keeps the agreement. -/
theorem State.cursorsAgree.setCursor {s t : State} (hs : s.cursorsAgree) {l : LaneId} {r : Role} {c : Cursor}
    (hentries : t.map.entries = s.map.entries) (hother : ∀ k, k ≠ l → t.lane k = s.lane k)
    (hlane : t.lane l = (s.lane l).setCursor r c) (hc : s.CursorAgrees l r c) : t.cursorsAgree := by
  refine State.cursorsAgree_iff.mpr fun k q => State.CursorAgrees.congr ?_ (State.mapEntry_congr hentries _)
  by_cases e : k = l
  · subst e
    rw [hlane]
    by_cases f : q = r
    · subst f
      rwa [Lane.cursor_setCursor_same]
    · rw [Lane.cursor_setCursor_other _ _ f]
      exact State.cursorsAgree_iff.mp hs k q
  · rw [hother k e]
    exact State.cursorsAgree_iff.mp hs k q

/-- A retarget maps no cursor (R105). -/
theorem Cursor.retargeted_cases (c : Cursor) (page : BitVec 7) :
    c.retargeted page = c ∨ (c.retargeted page).isMapped = false := by
  obtain ⟨old, status⟩ := c
  cases status with
  | mapped target =>
    by_cases e : old = page
    · exact .inl (by simp [Cursor.retargeted, e])
    · exact .inr (by simp [Cursor.retargeted, e, Cursor.isMapped])
  | _ => exact .inr rfl

/-! ### The operations on cursors -/

theorem keptByCursors_cursorsAgree : KeptByCursors fun _ s => s.cursorsAgree where
  opened _ hs := hs
  closed hs _ := hs
  same hs hmap hcursor _ := by
    refine State.cursorsAgree_iff.mpr fun l r => ?_
    rw [hcursor l]
    exact (State.cursorsAgree_iff.mp hs l r).congr (State.mapEntry_congr (by rw [hmap]) _)
  retarget {_ s l} r page _ hs := by
    have honly := onlyLane_retarget s l r page
    refine hs.setCursor honly.entries honly.others (retarget_lane s l r page) ?_
    rcases Cursor.retargeted_cases ((s.lane l).cursor r) page with e | e
    · rw [e]
      exact State.cursorsAgree_iff.mp hs l r
    · exact s.cursorAgrees_of_not_mapped l r e
  release {_ s} l r hs := by
    have honly := onlyLane_release s l r
    have hlane := release_lane s l r
    split at hlane
    · exact hs.setCursor honly.entries honly.others (hlane.trans (Lane.setCursor_self _ r).symm)
        (State.cursorsAgree_iff.mp hs l r)
    · exact hs.setCursor honly.entries honly.others hlane (s.cursorAgrees_of_not_mapped l r rfl)

theorem State.cursorsAgree.updCursor {s : State} (hs : s.cursorsAgree) {l : LaneId} {r : Role} {c : Cursor}
    (hc : s.CursorAgrees l r c) : (s.updLane l fun x => x.setCursor r c).cursorsAgree :=
  hs.setCursor rfl (fun _ hk => State.lane_updLane_other s _ hk) (State.lane_updLane_same s l _) hc

theorem State.cursorsAgree.lookupStart {s : State} (hs : s.cursorsAgree) : (lookupStart s).cursorsAgree := by
  unfold Machine.lookupStart
  split
  · next l r _ _ => exact hs.updCursor (s.cursorAgrees_of_not_mapped l r (c := ⟨((s.lane l).cursor r).page, .inFlight⟩) rfl)
  · exact hs

/-- A completion maps a cursor only to what its page's entry gives, and only when the checks pass (R109, R110). -/
theorem State.cursorsAgree.lookupCompletion {s : State} (hs : s.cursorsAgree) : (lookupCompletion s).cursorsAgree := by
  have hfree : s.freed.cursorsAgree := hs
  cases hk : s.map.lookup with
  | none => rwa [lookupCompletion_free hk]
  | some k =>
    cases hd : k.disposition with
    | abandoned => rwa [lookupCompletion_abandoned hk hd]
    | stale =>
      rw [lookupCompletion_stale hk hd]
      exact hfree.updCursor (s.freed.cursorAgrees_of_not_mapped k.lane k.role
        (c := ⟨((s.lane k.lane).cursor k.role).page, .pending⟩) rfl)
    | live =>
      cases hcheck : (s.mapEntry k.page).check k.lane k.role with
      | none =>
        rw [lookupCompletion_passed hk hd hcheck]
        have hagrees : s.freed.CursorAgrees k.lane k.role ⟨k.page, .mapped (s.mapEntry k.page).translation⟩ :=
          fun target htarget => ⟨hcheck, (CursorStatus.mapped.inj htarget).symm⟩
        exact keptByCursors_cursorsAgree.takeMapping (o := ∅) (hfree.updCursor hagrees) k.lane
      | some cause =>
        rw [lookupCompletion_failed hk hd hcheck]
        exact keptByCursors_cursorsAgree.failLookup (o := ∅) hfree k.lane k.role cause

/-- A shootdown changes a lane's cursors one by one (R112). -/
theorem Lane.shot_cursor (x : Lane) (page : BitVec 7) (inBeat : Bool) (r : Role) :
    (x.shot page inBeat).cursor r = (x.cursor r).shot page := by
  have hshot : (x.shootCursors page allRoles).cursor r = (x.cursor r).shot page := by cases r <;> rfl
  rw [Lane.shot_eq, Lane.foldl_shootRole]
  split
  · rw [(Lane.losingMap_parts _ _).1, hshot]
  · next h => rw [← hshot, Lane.shootCursors_of_not_mappedOn (Bool.not_eq_true _ ▸ h)]

/-- A commit of an entry leaves no cursor MAPPED on its page, and every other entry as it is (R103, R112). -/
theorem State.cursorsAgree.commitMapEntry {s t : State} {page : BitVec 7} {w : Word} (hs : s.cursorsAgree)
    (ht : commitMapEntry s page w = some t) : t.cursorsAgree := by
  cases he : MapEntry.ofWord w with
  | none => simp [Machine.commitMapEntry, he] at ht
  | some e =>
    rw [commitMapEntry_of_entry he] at ht
    obtain rfl := Option.some.inj ht
    have hshot := pageShot_shootdown (s.withEntry page e) page
    refine State.cursorsAgree_iff.mpr fun l r => State.CursorAgrees.congr ?_ (State.mapEntry_congr hshot.entries _)
    rw [hshot.lane, Lane.shot_cursor, State.withEntry_lane]
    cases hon : ((s.lane l).cursor r).mappedOn page with
    | true =>
      rw [Cursor.shot_of_mappedOn hon]
      exact State.cursorAgrees_of_not_mapped _ l r rfl
    | false =>
      rw [Cursor.shot_of_not_mappedOn hon]
      intro target htarget
      have hpage : ((s.lane l).cursor r).page ≠ page := by
        simpa [Cursor.mappedOn, Cursor.isMapped, htarget] using hon
      rw [withEntry_mapEntry, if_neg hpage]
      exact hs l r target htarget

/-- The lanes of a part just reset are as after either reset (R46). -/
theorem State.lane_of_cleared {s : State} (h : s.lanes = Vector.replicate 12 .reset) (l : LaneId) : s.lane l = .reset := by
  simp [State.lane, h, Vector.get]

theorem Lane.reset_cursor (r : Role) : Lane.reset.cursor r = .unset := by
  cases r <;> rfl

theorem keptByCommands_cursorsAgree : KeptByCommands fun _ s => s.cursorsAgree where
  toKeptByCursors := keptByCursors_cursorsAgree
  lookupStart hs := hs.lookupStart
  lookupCompletion hs := hs.lookupCompletion
  commitMapEntry hs ht := hs.commitMapEntry ht
  cleared {s} hlanes _ _ := by
    refine State.cursorsAgree_iff.mpr fun l r => ?_
    rw [State.lane_of_cleared hlanes, Lane.reset_cursor]
    exact s.cursorAgrees_of_not_mapped l r rfl

/-- Settles O58: no operation maps a cursor but a lookup completion, whose checks the entry has passed, and a commit re-pends
the cursors of its page. -/
theorem mappedCursorsAgreeWithThePageMap : Obligations.MappedCursorsAgreeWithThePageMap :=
  fun _ _ hs ht => keptByCommands_cursorsAgree.step hs ht

end Sys2Proof.Machine
end

section
/-! SUPPORT. The lookup unit's invariant, open for the lanes that a command is at work on (R41, R104, R106, R107). -/

namespace Sys2Proof.Machine

/-- The lookup unit's invariant with the lanes of `o` open: nothing is said of what those hold while at rest. -/
structure State.UnitSound (o : Set LaneId) (s : State) : Prop where
  nodup : s.map.queue.Nodup
  queued : ∀ l r, (l, r) ∈ s.map.queue ↔ ((s.lane l).cursor r).status = .pending
  lookedUp : ∀ l r, ((s.lane l).cursor r).status = .inFlight ↔ s.map.looksUp l r
  live : ∀ k, s.map.lookup = some k → k.disposition = .live → ((s.lane k.lane).cursor k.role).page = k.page
  unset : ∀ l r, ((s.lane l).cursor r).status = .unset → ((s.lane l).cursor r).page = 0
  rests : ∀ l, l ∉ o → (s.lane l).Rests

/-- The lanes at rest are the OFF, IDLE and FAULTED ones. -/
theorem LaneState.atRest_iff (x : LaneState) : x.atRest = true ↔ x = .off ∨ x = .idle ∨ x = .faulted := by
  cases x <;> simp [LaneState.atRest]

theorem State.lookupsSound_iff {s : State} : s.lookupsSound ↔ s.UnitSound ∅ where
  mp h := by
    obtain ⟨hnodup, hqueued, hlookedUp, hlive, hunset, hrests⟩ := h
    exact ⟨hnodup, hqueued, hlookedUp, hlive, hunset, fun l _ hrest r =>
      congrArg Cursor.status (hrests l ((LaneState.atRest_iff _).mp hrest) r)⟩
  mpr h := ⟨h.nodup, h.queued, h.lookedUp, h.live, h.unset, fun l hstate r =>
    have hstatus := h.rests l (Set.notMem_empty l) ((LaneState.atRest_iff _).mpr hstate) r
    Cursor.eq_unset hstatus (h.unset l r hstatus)⟩

theorem State.UnitSound.cursorSound {o : Set LaneId} {s : State} (h : s.UnitSound o) (l : LaneId) (r : Role) :
    s.CursorSound l r := ⟨(h.queued l r).mp, h.lookedUp l r, h.unset l r⟩

section
variable {o : Set LaneId} {s : State} (h : s.UnitSound o)
include h

/-- The lane of a cursor that is not UNSET is not at rest, unless it is open. -/
theorem State.UnitSound.awake {l : LaneId} {r : Role} (hset : ((s.lane l).cursor r).status ≠ .unset) :
    l ∈ o ∨ (s.lane l).state.atRest = false := by
  by_contra hrest
  obtain ⟨hl, hstate⟩ := not_or.mp hrest
  exact hset (h.rests l hl (Bool.eq_true_of_not_eq_false hstate) r)

/-- The cursor of a lookup not abandoned is IN_FLIGHT (R104). -/
theorem State.UnitSound.inFlight {k : Lookup} (hk : s.map.lookup = some k) (hd : k.disposition ≠ .abandoned) :
    ((s.lane k.lane).cursor k.role).status = .inFlight := (h.lookedUp _ _).mpr ⟨k, hk, hd, rfl, rfl⟩

theorem State.UnitSound.lookupAwake {k : Lookup} (hk : s.map.lookup = some k) (hd : k.disposition ≠ .abandoned) :
    k.lane ∈ o ∨ (s.lane k.lane).state.atRest = false := h.awake (r := k.role) (by simp [h.inFlight hk hd])

end

end Sys2Proof.Machine
end

section
/-! CERTIFICATE. The start and the completion of a lookup (R66, R108 to R111; log 2, log 3, log 10); O48, O49. -/

namespace Sys2Proof.Machine

/-! ### The start of a lookup -/

theorem exec_lookupStart {s : State} (hpin : s.resetPin = false) : exec .lookupStart s = .next (lookupStart s) :=
  congrArg Host.Outcome.next (unlessReset_run hpin _)

/-- A lookup that starts takes the chosen cursor out of the queue (R108). -/
theorem lookupStart_starts {s : State} (hfree : s.map.lookup = none) {l : LaneId} {r : Role}
    (hchoice : chooseCursor s = some (l, r)) : lookupStart s =
      (s.setLane l ((s.lane l).setCursor r ⟨((s.lane l).cursor r).page, .inFlight⟩)).withMap { s.map with
        queue := s.map.queue.filter fun q => q != (l, r)
        lookup := some ⟨l, r, ((s.lane l).cursor r).page, .live⟩ } := by
  simp only [lookupStart, hfree, hchoice]
  rfl

theorem lookupStart_busy {s : State} {k : Lookup} (h : s.map.lookup = some k) : lookupStart s = s := by
  simp only [lookupStart, h]

theorem lookupStart_nothing {s : State} (h : chooseCursor s = none) : lookupStart s = s := by
  unfold lookupStart
  split
  · next hchoice =>
    rw [h] at hchoice
    contradiction
  · rfl

/-- The oldest cursor of the lane that the next entry names is chosen (R66, R108). -/
theorem chooseCursor_named {s : State} {before after : List (LaneId × Role)} {l : LaneId} {r : Role}
    (hqueue : s.map.queue = before ++ (l, r) :: after) (hnamed : s.wheel.nextEntry.named = some l)
    (hbefore : ∀ q ∈ before, q.1 ≠ l) : chooseCursor s = some (l, r) := by
  have hfind : (s.map.queue.find? fun q => q.1 == l) = some (l, r) := by
    rw [hqueue, List.find?_append, List.find?_eq_none.mpr fun q hq => by simpa using hbefore q hq]
    simp
  simp only [chooseCursor, hnamed, hfind]

/-- The oldest cursor of all is chosen if the next entry names no lane with a cursor queued (R108). -/
theorem chooseCursor_oldest {s : State} (h : ∀ k, s.wheel.nextEntry.named = some k → ∀ q ∈ s.map.queue, q.1 ≠ k) :
    chooseCursor s = s.map.queue.head? := by
  unfold chooseCursor
  split
  · next k hk =>
    rw [List.find?_eq_none.mpr fun q hq => by simpa using h k hk q hq]
  · rfl

/-- A queue that holds a cursor once is the queue around it when the cursor is taken out. -/
theorem filter_ne_of_nodup {before after : List (LaneId × Role)} {c : LaneId × Role}
    (h : (before ++ c :: after).Nodup) : ((before ++ c :: after).filter fun q => q != c) = before ++ after := by
  rw [List.nodup_middle, List.nodup_cons] at h
  rw [List.filter_append, List.filter_cons_of_neg (by simp), ← List.filter_append]
  refine List.filter_eq_self.mpr fun q hq => bne_iff_ne.mpr fun e => h.1 (e ▸ hq)

/-- Settles O48, from the choice of the cursor and what the start makes of the queue. -/
theorem lookupStartChoosesTheCursor : Obligations.LookupStartChoosesTheCursor := by
  intro s before after l r hpin hsound
  obtain ⟨hnodup, -⟩ := hsound
  refine ⟨fun hfree hqueue hchosen => ?_, fun hidle => ?_⟩
  · have hchoice : chooseCursor s = some (l, r) := by
      rcases hchosen with ⟨hnamed, hbefore⟩ | ⟨rfl, hnone⟩
      · exact chooseCursor_named hqueue hnamed hbefore
      · rw [chooseCursor_oldest hnone, hqueue]
        rfl
    rw [exec_lookupStart hpin, lookupStart_starts hfree hchoice, hqueue, filter_ne_of_nodup (hqueue ▸ hnodup)]
    rfl
  · rw [exec_lookupStart hpin]
    refine congrArg Host.Outcome.next ?_
    rcases hidle with hbusy | hempty
    · obtain ⟨k, hk⟩ := Option.isSome_iff_exists.mp hbusy
      exact lookupStart_busy hk
    · have hchoice : chooseCursor s = none := by
        rw [chooseCursor_oldest (by simp [hempty]), hempty]
        rfl
      exact lookupStart_nothing hchoice

/-! ### The map unit free -/

theorem release_freed (s : State) (l : LaneId) (r : Role) : release s.freed l r = (release s l r).freed := by
  unfold release
  rw [State.freed_lane]
  dsimp only
  cases ((s.lane l).cursor r).status <;> rfl

theorem enterFaulted_freed (s : State) (l : LaneId) (f : FaultRecord) :
    enterFaulted s.freed l f = (enterFaulted s l f).freed := by
  simp only [enterFaulted, releaseAll, allRoles, List.foldl, release_freed]
  rfl

/-! ### The lane that a completion maps for -/

theorem Lane.losing_blocked {x : Lane} (h : x.state = .blocked) (remove : Reasons → Reasons) : x.losing remove =
    if remove x.reasons = .empty then x.enterActive else { x with reasons := remove x.reasons } := by
  simp only [Lane.losing, h]
  rfl

theorem Lane.losing_held {x : Lane} (h : x.state = .halted) {held : Reasons} (hresume : x.resume = some (.blocked held))
    (remove : Reasons → Reasons) : x.losing remove =
      { x with resume := some (if remove held = .empty then .active else .blocked (remove held)) } := by
  have hlosing : x.losing remove = if remove held = .empty then { x with resume := some .active }
      else { x with resume := some (.blocked (remove held)) } := by
    simp only [Lane.losing, h, hresume]
    rfl
  rw [hlosing]
  split <;> rfl

theorem Lane.losing_other {x : Lane} (hstate : x.state ≠ .blocked)
    (hresume : x.state = .halted → ∀ held, x.resume ≠ some (.blocked held)) (remove : Reasons → Reasons) :
    x.losing remove = x := by
  unfold Lane.losing
  split
  · contradiction
  · next held e eheld => exact absurd eheld (hresume e held)
  · rfl

/-- A lane that loses reasons, in full (R23, R38). -/
theorem removeReason_eq (s : State) (l : LaneId) (remove : Reasons → Reasons) :
    removeReason s l remove = s.setLane l ((s.lane l).losing remove) := by
  by_cases hblocked : (s.lane l).state = .blocked
  · rw [Lane.losing_blocked hblocked]
    simp only [removeReason, hblocked]
    split
    · exact settle_empty_eq s l
    · simp only [State.updLane, hblocked]
  · by_cases hheld : (s.lane l).state = .halted ∧ ∃ held, (s.lane l).resume = some (.blocked held)
    · obtain ⟨hstate, held, hresume⟩ := hheld
      rw [Lane.losing_held hstate hresume]
      simp only [removeReason, hstate, hresume, State.updLane]
    · have hother := fun hstate held e => hheld ⟨hstate, held, e⟩
      rw [Lane.losing_other hblocked hother, removeReason_other remove hblocked hother, State.setLane_self]

theorem takeMapping_eq (s : State) (l : LaneId) (r : Role) (c : Cursor) :
    takeMapping (s.updLane l fun x => x.setCursor r c) l = s.setLane l ((s.lane l).mappedTo r c) := by
  unfold takeMapping Lane.mappedTo
  dsimp only
  rw [State.lane_updLane_same]
  split
  · rw [removeReason_eq, State.lane_updLane_same]
    exact State.setLane_setLane s l _ _
  · rfl

/-! ### The lane that a completion fails for -/

/-- A lane outside its own beat that is not at rest takes an asynchronous fault at once (R35). -/
theorem asyncFault_now {s : State} {l : LaneId} (hawake : (s.lane l).state.atRest = false)
    (hown : (s.lane l).state = .active → s.ownBeat l = false) (cause : FaultCause) (role : Role) :
    asyncFault s l cause role = enterFaulted s l (asyncRecord (s.lane l) cause role) := by
  unfold asyncFault
  dsimp only
  cases hstate : (s.lane l).state <;> dsimp only
  case active => rw [if_neg (Bool.eq_false_iff.mp (hown hstate))]
  all_goals
    rw [hstate] at hawake
    contradiction

/-- A failed lookup of a lane outside its own beat faults the lane, and frees the map unit (R111). -/
theorem failLookup_now {s : State} {l : LaneId} (hawake : (s.lane l).state.atRest = false)
    (hown : (s.lane l).state = .active → s.ownBeat l = false) (r : Role) (cause : FaultCause) :
    failLookup s.freed l r cause = (enterFaulted s l (asyncRecord (s.lane l) cause r)).freed := by
  have hnow : (s.ownBeat l && (s.lane l).state == .active) = false := by
    rw [Bool.and_comm]
    cases hactive : (s.lane l).state == .active with
    | false => rfl
    | true => exact hown (beq_iff_eq.mp hactive)
  unfold failLookup
  dsimp only
  change (if (s.ownBeat l && (s.lane l).state == .active) = true then _ else _) = _
  rw [hnow, if_neg Bool.false_ne_true, asyncFault_now (s := s.freed) hawake hown, enterFaulted_freed]
  rfl

/-- A lane that holds a request deferred during its beat. -/
def Lane.deferring (x : Lane) (cause : FaultCause) (r : Role) : Lane := { x with deferred := deferFault x.deferred cause r }

/-- A failed lookup of a lane in its own beat is deferred, and its cursor becomes UNSET (R33, R111). -/
theorem failLookup_deferred {s : State} {l : LaneId} {r : Role} (hactive : (s.lane l).state = .active)
    (hown : s.ownBeat l = true) (hflight : ((s.lane l).cursor r).status = .inFlight) (cause : FaultCause) :
    failLookup s.freed l r cause =
      (s.setLane l (((s.lane l).deferring cause r).setCursor r .unset)).freed := by
  have hnow : (s.ownBeat l && (s.lane l).state == .active) = true := by simp [hown, hactive]
  have hasync : asyncFault s.freed l cause r = s.freed.updLane l fun x => x.deferring cause r := by
    unfold asyncFault
    simp only [State.freed_lane, hactive]
    exact if_pos hown
  have hcursor : (((s.freed.updLane l fun x => x.deferring cause r).lane l).cursor r).status = .inFlight := by
    rw [State.lane_updLane_same]
    exact hflight
  unfold failLookup
  dsimp only
  change (if (s.ownBeat l && (s.lane l).state == .active) = true then _ else _) = _
  rw [hnow, if_pos rfl, hasync]
  unfold release
  simp only [hcursor, State.updLane_updLane]
  rfl

theorem exec_lookupCompletion {s : State} (hpin : s.resetPin = false) :
    exec .lookupCompletion s = .next (lookupCompletion s) := congrArg Host.Outcome.next (unlessReset_run hpin _)

/-! ### The checks, and the statement -/

theorem MapEntry.check_eq (e : MapEntry) (l : LaneId) (r : Role) : e.check l r =
    if e.valid = false then some .unmapped
    else if e.mask.getLsbD l.val = false then some .denied
    else if e.kind = .memory ∧ (if r = .dst then e.write else e.read) = false then some .noRight
    else if (e.kind = .portRx ∧ r ≠ .src) ∨ (e.kind = .portTx ∧ r ≠ .dst) then some .targetKind
    else none := by
  unfold MapEntry.check MapEntry.admits
  cases e.valid with
  | false => rfl
  | true =>
    cases e.mask.getLsbD l.val with
    | false => rfl
    | true =>
      cases e.kind with
      | memory =>
        have hgrants : e.grants r = if r = .dst then e.write else e.read := by cases r <;> rfl
        simp only [hgrants]
        cases (if r = .dst then e.write else e.read) <;> simp
      | portRx => simp
      | portTx => simp

theorem MapEntry.translation_eq (e : MapEntry) : e.translation =
    if e.kind = .memory then .memory e.page e.read e.write
    else if e.kind = .portRx then .port e.port .rx else .port e.port .tx := by
  unfold MapEntry.translation
  cases e.kind <;> rfl

/-- Settles O49, by the disposition of the lookup, the checks, and whether the lane is in its own beat. -/
theorem lookupCompletionMapsFaultsOrDiscards : Obligations.LookupCompletionMapsFaultsOrDiscards := by
  intro s e l r hpin hsound
  rw [exec_lookupCompletion hpin]
  refine ⟨e.check_eq l r, e.translation_eq, fun hnone => by rw [lookupCompletion_free hnone], fun k hk => ?_⟩
  have hunit := State.lookupsSound_iff.mp hsound
  have hflight := hunit.inFlight hk
  refine ⟨fun hlive hcheck => ?_, fun hlive cause hcheck hown => ?_, fun hlive cause hcheck hactive hown => ?_,
    fun hstale => ?_, fun hdropped => by rw [lookupCompletion_abandoned hk hdropped]⟩
  · rw [lookupCompletion_passed hk hlive hcheck, takeMapping_eq]
    rfl
  · have hawake := (hunit.lookupAwake hk (by simp [hlive])).resolve_left (Set.notMem_empty _)
    rw [lookupCompletion_failed hk hlive hcheck, failLookup_now hawake hown,
      enterFaulted_eq (hunit.cursorSound k.lane)]
    rfl
  · rw [lookupCompletion_failed hk hlive hcheck, failLookup_deferred hactive hown (hflight (by simp [hlive]))]
    have hheld : deferFault (s.lane k.lane).deferred cause k.role = match (s.lane k.lane).deferred with
        | none => some (.fault cause k.role)
        | some .halt => some (.fault cause k.role)
        | held => held := by
      unfold deferFault
      cases (s.lane k.lane).deferred with
      | none => rfl
      | some d => cases d <;> rfl
    rw [Lane.deferring, hheld]
    rfl
  · rw [lookupCompletion_stale hk hstale, State.enqueue_eq]
    rfl

end Sys2Proof.Machine
end

section
/-! CERTIFICATE. Every step keeps the lookup unit sound (R41, R104, R106, R107); O57. -/

namespace Sys2Proof.Machine

/-! ### A lookup unit by the one lookup it has -/

theorem MapUnit.looksUp_iff {m : MapUnit} {k : Lookup} (h : m.lookup = some k) (l : LaneId) (r : Role) :
    m.looksUp l r ↔ k.disposition ≠ .abandoned ∧ k.lane = l ∧ k.role = r := by
  simp [MapUnit.looksUp, h]

theorem MapUnit.not_looksUp_of_free {m : MapUnit} (h : m.lookup = none) (l : LaneId) (r : Role) : ¬ m.looksUp l r := by
  simp [MapUnit.looksUp, h]

theorem Disposition.toStale_ne_live (d : Disposition) : d.toStale ≠ .live := by
  cases d <;> simp [Disposition.toStale]

/-- A lookup in progress that has been marked stale is not live. -/
theorem not_live_of_stale {m : Option Lookup} {k : Lookup}
    (h : (m.map fun k => { k with disposition := k.disposition.toStale }) = some k) : k.disposition ≠ .live := by
  obtain ⟨j, -, rfl⟩ := Option.map_eq_some_iff.mp h
  exact Disposition.toStale_ne_live _

/-- The cursor chosen for a lookup is queued (R108). -/
theorem chooseCursor_mem {s : State} {c : LaneId × Role} (hc : chooseCursor s = some c) : c ∈ s.map.queue := by
  unfold chooseCursor at hc
  split at hc
  · split at hc
    · next hfind => exact List.mem_of_find?_eq_some (Option.some.inj hc ▸ hfind)
    · exact List.mem_of_head? hc
  · exact List.mem_of_head? hc

/-! ### The two ways to change the lookup unit -/

/-- The state with one cursor and the lookup unit replaced. -/
def State.withCursor (s : State) (l : LaneId) (r : Role) (c : Cursor) (m : MapUnit) : State :=
  (s.setLane l ((s.lane l).setCursor r c)).withMap m

theorem State.withCursor_cursor (s : State) (l j : LaneId) (r q : Role) (c : Cursor) (m : MapUnit) :
    ((s.withCursor l r c m).lane j).cursor q = if (j, q) = (l, r) then c else (s.lane j).cursor q := by
  split
  · next e =>
    obtain ⟨rfl, rfl⟩ := Prod.mk.inj e
    rw [State.withCursor, State.withMap_lane, State.lane_setLane_same, Lane.cursor_setCursor_same]
  · next e => exact State.setCursor_other c e

theorem State.withCursor_state (s : State) (l j : LaneId) (r : Role) (c : Cursor) (m : MapUnit) :
    ((s.withCursor l r c m).lane j).state = (s.lane j).state := by
  rw [State.withCursor, State.withMap_lane, State.lane_setLane]
  split
  · next e =>
    rw [e]
    cases r <;> rfl
  · rfl

section
variable {o : Set LaneId} {s : State} (h : s.UnitSound o)
include h

/-- A change of the lookup unit alone, to one with the same queue and the same lookups. -/
theorem State.UnitSound.withMap {m : MapUnit} (hqueue : m.queue = s.map.queue)
    (hlooks : ∀ j q, m.looksUp j q ↔ s.map.looksUp j q)
    (hlive : ∀ k, m.lookup = some k → k.disposition = .live → s.map.lookup = some k) : (s.withMap m).UnitSound o where
  nodup := hqueue ▸ h.nodup
  queued l r := hqueue ▸ h.queued l r
  lookedUp l r := (h.lookedUp l r).trans (hlooks l r).symm
  live k hk hd := h.live k (hlive k hk hd) hd
  unset := h.unset
  rests := h.rests

/-- A change of one cursor with the lookup unit: the queue and the lookup say of that cursor what its new status says, and
of the others what they said. -/
theorem State.UnitSound.withCursor {l : LaneId} {r : Role} {c : Cursor} {m : MapUnit}
    (hawake : (l ∈ o ∨ (s.lane l).state.atRest = false) ∨ c.status = .unset)
    (hnodup : m.queue.Nodup)
    (hqueue : ∀ q, q ∈ m.queue ↔ if q = (l, r) then c.status = .pending else q ∈ s.map.queue)
    (hlooks : ∀ j q, m.looksUp j q ↔ if (j, q) = (l, r) then c.status = .inFlight else s.map.looksUp j q)
    (hlive : ∀ k, m.lookup = some k → k.disposition = .live →
      if (k.lane, k.role) = (l, r) then c.page = k.page else s.map.lookup = some k)
    (hunset : c.status = .unset → c.page = 0) : (s.withCursor l r c m).UnitSound o where
  nodup := hnodup
  queued j q := by
    refine (hqueue (j, q)).trans ?_
    rw [State.withCursor_cursor]
    split
    · rfl
    · exact h.queued j q
  lookedUp j q := by
    refine Iff.trans ?_ (hlooks j q).symm
    rw [State.withCursor_cursor]
    split
    · rfl
    · exact h.lookedUp j q
  live k hk hd := by
    have hown := hlive k hk hd
    rw [State.withCursor_cursor]
    split
    · next e => rwa [if_pos e] at hown
    · next e =>
      rw [if_neg e] at hown
      exact h.live k hown hd
  unset j q := by
    rw [State.withCursor_cursor]
    split
    · exact hunset
    · exact h.unset j q
  rests j hj hrest q := by
    rw [State.withCursor_state] at hrest
    rw [State.withCursor_cursor]
    split
    · next e =>
      obtain ⟨rfl, -⟩ := Prod.mk.inj e
      rcases hawake with (hopen | hstate) | hdone
      · exact absurd hopen hj
      · exact absurd (hrest.symm.trans hstate) (by decide)
      · exact hdone
    · exact h.rests j hj hrest q

/-! ### The operations on cursors -/

theorem State.UnitSound.same {t : State} (hmap : t.map = s.map) (hcursor : ∀ k, (t.lane k).cursor = (s.lane k).cursor)
    (hrest : ∀ k, k ∉ o → (t.lane k).state.atRest = true → (s.lane k).state.atRest = true) : t.UnitSound o where
  nodup := hmap ▸ h.nodup
  queued l r := by
    rw [hmap, hcursor]
    exact h.queued l r
  lookedUp l r := by
    rw [hmap, hcursor]
    exact h.lookedUp l r
  live k := by
    rw [hmap, hcursor]
    exact h.live k
  unset l r := by
    rw [hcursor]
    exact h.unset l r
  rests l hl hstate r := by
    rw [hcursor]
    exact h.rests l hl (hrest l hl hstate) r

/-- A cursor neither PENDING nor IN_FLIGHT is queued (R105, R107). -/
theorem State.UnitSound.enqueue {l : LaneId} {r : Role} (page : BitVec 7)
    (hawake : l ∈ o ∨ (s.lane l).state.atRest = false) (hpending : ((s.lane l).cursor r).status ≠ .pending)
    (hflight : ((s.lane l).cursor r).status ≠ .inFlight) : (s.enqueue l r page).UnitSound o := by
  have hunqueued : (l, r) ∉ s.map.queue := fun hmem => hpending ((h.queued l r).mp hmem)
  have hunlooked : ¬ s.map.looksUp l r := fun hlook => hflight ((h.lookedUp l r).mpr hlook)
  refine h.withCursor (.inl hawake) ?_ (fun q => ?_) (fun j q => ?_) (fun k hk hd => ?_) (by simp)
  · exact List.Nodup.append h.nodup (List.nodup_singleton _) (by simpa using hunqueued)
  · by_cases e : q = (l, r) <;> simp [e]
  · split
    · next e =>
      obtain ⟨rfl, rfl⟩ := Prod.mk.inj e
      exact iff_of_false hunlooked (by simp)
    · rfl
  · rw [if_neg]
    · exact hk
    · intro e
      obtain ⟨hl, hr⟩ := Prod.mk.inj e
      exact hunlooked ⟨k, hk, by simp [hd], hl, hr⟩

/-- A cursor keeps its status and takes another page; a lookup for it is marked stale with it (R105, R107). -/
theorem State.UnitSound.repage {l : LaneId} {r : Role} {c : Cursor} {m : MapUnit}
    (hawake : l ∈ o ∨ (s.lane l).state.atRest = false) (hstatus : c.status = ((s.lane l).cursor r).status)
    (hset : c.status ≠ .unset) (hqueue : m.queue = s.map.queue) (hlooks : ∀ j q, m.looksUp j q ↔ s.map.looksUp j q)
    (hlive : ∀ k, m.lookup = some k → k.disposition = .live → s.map.lookup = some k ∧ (k.lane, k.role) ≠ (l, r)) :
    (s.withCursor l r c m).UnitSound o := by
  refine h.withCursor (.inl hawake) (hqueue ▸ h.nodup) (fun q => ?_) (fun j q => ?_) (fun k hk hd => ?_) fun e => absurd e hset
  · rw [hqueue, hstatus]
    split
    · next e => exact e ▸ h.queued l r
    · rfl
  · rw [hlooks, hstatus]
    split
    · next e =>
      obtain ⟨rfl, rfl⟩ := Prod.mk.inj e
      exact (h.lookedUp j q).symm
    · rfl
  · obtain ⟨hsame, hother⟩ := hlive k hk hd
    rwa [if_neg hother]

theorem State.UnitSound.markStale : s.markStale.UnitSound o :=
  h.withMap rfl (looksUp_stale s.map) fun _ hk hd => absurd hd (not_live_of_stale hk)

/-- A retarget of a cursor of an open lane (R105). -/
theorem State.UnitSound.retarget {l : LaneId} (hopen : l ∈ o) (r : Role) (page : BitVec 7) :
    (retarget s l r page).UnitSound o := by
  unfold Machine.retarget
  dsimp only
  cases e : ((s.lane l).cursor r).status with
  | unset => exact h.enqueue page (.inl hopen) (by simp [e]) (by simp [e])
  | pending =>
    have hunlooked : ¬ s.map.looksUp l r := fun hlook => by simpa [e] using (h.lookedUp l r).mpr hlook
    refine h.repage (c := ⟨page, .pending⟩) (m := s.map) (.inl hopen) e.symm (by simp) rfl (fun _ _ => Iff.rfl)
      fun k hk hd => ⟨hk, fun hown => ?_⟩
    obtain ⟨hl, hr⟩ := Prod.mk.inj hown
    exact hunlooked ⟨k, hk, by simp [hd], hl, hr⟩
  | inFlight =>
    dsimp only
    split
    · exact h
    · exact h.repage (c := ⟨page, .inFlight⟩) (.inl hopen) e.symm (by simp) rfl (looksUp_stale s.map)
        fun _ hk hd => absurd hd (not_live_of_stale hk)
  | mapped target =>
    dsimp only
    split
    · exact h
    · exact h.enqueue page (.inl hopen) (by simp [e]) (by simp [e])

/-- A release takes the cursor's request out of the queue and abandons its lookup (R106, R107). -/
theorem State.UnitSound.release (l : LaneId) (r : Role) : (release s l r).UnitSound o := by
  rw [release_eq (h.cursorSound l r)]
  refine h.withCursor (c := .unset) (.inr rfl) (h.nodup.filter _) (fun q => ?_) (fun j q => ?_) (fun k hk hd => ?_)
    fun _ => rfl
  · by_cases e : q = (l, r) <;> simp [MapUnit.withoutCursor, e, Cursor.unset]
  · rw [looksUp_withoutCursor]
    by_cases e : (j, q) = (l, r) <;> simp [e, Cursor.unset]
  · obtain ⟨j, hj, rfl⟩ := Option.map_eq_some_iff.mp hk
    by_cases e : j.lane = l ∧ j.role = r
    · simp [e] at hd
    · rw [if_neg e] at hd ⊢
      rwa [if_neg fun eq => e (Prod.mk.inj eq)]

/-! ### Lookups and shootdowns -/

/-- The map unit becomes free when no cursor is IN_FLIGHT (R109). -/
theorem State.UnitSound.freed (hnone : ∀ j q, ¬ s.map.looksUp j q) : s.freed.UnitSound o :=
  h.withMap rfl (fun j q => iff_of_false (MapUnit.not_looksUp_of_free rfl j q) (hnone j q))
    fun _ hk => absurd hk (Option.some_ne_none _).symm

/-- A queued cursor becomes IN_FLIGHT, its request leaves the queue, and its lookup begins live (R107, R108). -/
theorem State.UnitSound.started (hfree : s.map.lookup = none) {l : LaneId} {r : Role} (hmem : (l, r) ∈ s.map.queue) :
    (s.withCursor l r ⟨((s.lane l).cursor r).page, .inFlight⟩ { s.map with
      queue := s.map.queue.filter fun q => q != (l, r)
      lookup := some ⟨l, r, ((s.lane l).cursor r).page, .live⟩ }).UnitSound o := by
  have hpending := (h.queued l r).mp hmem
  refine h.withCursor (.inl (h.awake (r := r) (by simp [hpending]))) (h.nodup.filter _) (fun q => ?_) (fun j q => ?_)
    (fun k hk _ => ?_) (by simp)
  · by_cases e : q = (l, r) <;> simp [e]
  · rw [MapUnit.looksUp_iff rfl]
    by_cases e : (j, q) = (l, r)
    · obtain ⟨rfl, rfl⟩ := Prod.mk.inj e
      simp
    · rw [if_neg e]
      refine iff_of_false (fun ⟨_, hl, hr⟩ => e ?_) (MapUnit.not_looksUp_of_free hfree j q)
      exact Prod.ext hl.symm hr.symm
  · obtain rfl := Option.some.inj hk
    simp

/-- The cursor of a lookup that completes takes its new status, and the map unit becomes free (R109, R110, R111). -/
theorem State.UnitSound.completed {k : Lookup} (hk : s.map.lookup = some k) (hd : k.disposition ≠ .abandoned) {c : Cursor}
    (hpending : c.status ≠ .pending) (hflight : c.status ≠ .inFlight) (hunset : c.status = .unset → c.page = 0) :
    (s.withCursor k.lane k.role c { s.map with lookup := none }).UnitSound o := by
  refine h.withCursor (.inl (h.lookupAwake hk hd)) h.nodup (fun q => ?_) (fun j q => ?_)
    (fun _ hnone => absurd hnone (Option.some_ne_none _).symm) hunset
  · split
    · next e =>
      rw [e, h.queued, h.inFlight hk hd]
      exact iff_of_false (by simp) hpending
    · rfl
  · refine iff_of_false (MapUnit.not_looksUp_of_free rfl j q) ?_
    split
    · exact hflight
    · next e =>
      rw [MapUnit.looksUp_iff hk]
      exact fun ⟨_, hl, hr⟩ => e (Prod.ext hl.symm hr.symm)

theorem State.UnitSound.lookupStart : (lookupStart s).UnitSound o := by
  cases hfree : s.map.lookup with
  | some k => rwa [lookupStart_busy hfree]
  | none =>
    cases hchoice : chooseCursor s with
    | none => rwa [lookupStart_nothing hchoice]
    | some c =>
      rw [lookupStart_starts hfree hchoice]
      exact h.started hfree (chooseCursor_mem hchoice)

end

theorem keptByCursors_unitSound : KeptByCursors State.UnitSound where
  opened l hs := ⟨hs.nodup, hs.queued, hs.lookedUp, hs.live, hs.unset, fun k hk =>
    hs.rests k fun hmem => hk (Set.mem_insert_of_mem l hmem)⟩
  closed {o _ l} hs hl := ⟨hs.nodup, hs.queued, hs.lookedUp, hs.live, hs.unset, fun k hk => by
    by_cases e : k = l
    · exact e ▸ hl
    · exact hs.rests k fun hmem => hk (Set.mem_of_mem_insert_of_ne hmem e)⟩
  same hs hmap hcursor hrest := hs.same hmap hcursor hrest
  retarget r page hopen hs := hs.retarget hopen r page
  release l r hs := hs.release l r

section
variable {s : State} (h : s.UnitSound ∅)
include h

/-! A lookup completion, by the lookup's disposition and the checks (R109 to R111). -/

/-- A stale lookup's cursor is queued again (R109). -/
theorem State.UnitSound.lookupDiscarded {k : Lookup} (hk : s.map.lookup = some k) (hd : k.disposition ≠ .abandoned)
    (page : BitVec 7) : (s.freed.enqueue k.lane k.role page).UnitSound ∅ := by
  have hunset := h.completed hk hd (c := .unset) (by simp [Cursor.unset]) (by simp [Cursor.unset]) fun _ => rfl
  generalize hu : s.withCursor k.lane k.role .unset _ = u at hunset
  have hcursor : (u.lane k.lane).cursor k.role = .unset := by rw [← hu, State.withCursor_cursor, if_pos rfl]
  have hawake : (u.lane k.lane).state.atRest = false := by
    rw [← hu, State.withCursor_state]
    exact (h.lookupAwake hk hd).resolve_left (Set.notMem_empty _)
  have hqueued := hunset.enqueue (r := k.role) page (.inr hawake) (by simp [hcursor, Cursor.unset])
    (by simp [hcursor, Cursor.unset])
  have hsame : u.enqueue k.lane k.role page = s.freed.enqueue k.lane k.role page := by
    rw [← hu, State.enqueue_eq, State.enqueue_eq]
    simp only [State.withCursor, State.freed, State.withMap_lane, State.lane_setLane_same, State.withMap_setLane,
      State.setLane_setLane, State.withMap_withMap, State.withMap_map]
    cases k.role <;> rfl
  exact hsame ▸ hqueued

/-- A failed lookup leaves its cursor UNSET, by the lane's fault or by a release (R111). -/
theorem State.UnitSound.lookupFailed {k : Lookup} (hk : s.map.lookup = some k) (hd : k.disposition ≠ .abandoned)
    (cause : FaultCause) : (failLookup s.freed k.lane k.role cause).UnitSound ∅ := by
  by_cases hbeat : (s.lane k.lane).state = .active ∧ s.ownBeat k.lane = true
  · obtain ⟨hactive, hown⟩ := hbeat
    have hheld := keptByCursors_unitSound.updLane (l := k.lane) (f := fun x => x.deferring cause k.role) h fun _ => id
    have hdone := hheld.completed hk hd (c := .unset) (by simp [Cursor.unset]) (by simp [Cursor.unset]) fun _ => rfl
    rw [failLookup_deferred hactive hown (h.inFlight hk hd)]
    simp only [State.withCursor, State.updLane, State.lane_setLane_same, State.setLane_setLane] at hdone
    exact hdone
  · have hawake := (h.lookupAwake hk hd).resolve_left (Set.notMem_empty _)
    have hown : (s.lane k.lane).state = .active → s.ownBeat k.lane = false := fun hactive =>
      Bool.eq_false_iff.mpr fun hown => hbeat ⟨hactive, hown⟩
    rw [failLookup_now hawake hown]
    generalize asyncRecord (s.lane k.lane) cause k.role = f
    have hmap : (enterFaulted s k.lane f).map = s.map.without k.lane := by
      rw [enterFaulted_eq (h.cursorSound k.lane)]
    have habandoned : (enterFaulted s k.lane f).map.lookup = some { k with disposition := .abandoned } := by
      simp [hmap, MapUnit.without, hk]
    refine (keptByCursors_unitSound.enterFaulted (keptByCursors_unitSound.opened k.lane h) f).freed fun j q => ?_
    rw [MapUnit.looksUp_iff habandoned]
    exact fun hlook => hlook.1 rfl

theorem State.UnitSound.lookupCompletion : (lookupCompletion s).UnitSound ∅ := by
  cases hk : s.map.lookup with
  | none => rwa [lookupCompletion_free hk]
  | some k =>
    cases hd : k.disposition with
    | abandoned =>
      rw [lookupCompletion_abandoned hk hd]
      refine h.freed fun j q => ?_
      rw [MapUnit.looksUp_iff hk]
      exact fun hlook => hlook.1 hd
    | stale =>
      rw [lookupCompletion_stale hk hd]
      exact h.lookupDiscarded hk (by simp [hd]) _
    | live =>
      cases hcheck : (s.mapEntry k.page).check k.lane k.role with
      | none =>
        rw [lookupCompletion_passed hk hd hcheck]
        exact keptByCursors_unitSound.takeMapping (h.completed hk (by simp [hd])
          (c := ⟨k.page, .mapped (s.mapEntry k.page).translation⟩) (by simp) (by simp) (by simp)) k.lane
      | some cause =>
        rw [lookupCompletion_failed hk hd hcheck]
        exact h.lookupFailed hk (by simp [hd]) cause

/-! The shootdown of a page (R112 to R114). -/

theorem State.UnitSound.staleOnShootdown (page : BitVec 7) : (staleOnShootdown s page).UnitSound ∅ := by
  unfold Machine.staleOnShootdown
  split
  · dsimp only
    split
    · exact h.markStale
    · exact h
  · exact h

theorem State.UnitSound.shootCursor (page : BitVec 7) (l : LaneId) (r : Role) :
    (shootCursor page s l r).UnitSound ∅ := by
  unfold Machine.shootCursor
  dsimp only
  split
  · next hon =>
    obtain ⟨target, hmapped⟩ : ∃ target, ((s.lane l).cursor r).status = .mapped target := by
      cases hstatus : ((s.lane l).cursor r).status with
      | mapped target => exact ⟨target, rfl⟩
      | _ => simp [Cursor.isMapped, hstatus] at hon
    exact keptByCursors_unitSound.loseMapping (h.enqueue page (h.awake (r := r) (by simp [hmapped])) (by simp [hmapped])
      (by simp [hmapped])) l
  · exact h

theorem State.UnitSound.commitMapEntry {t : State} {page : BitVec 7} {w : Word}
    (ht : commitMapEntry s page w = some t) : t.UnitSound ∅ := by
  cases he : MapEntry.ofWord w with
  | none => simp [Machine.commitMapEntry, he] at ht
  | some e =>
    rw [commitMapEntry_of_entry he] at ht
    have hentry : (s.withEntry page e).UnitSound ∅ := h.withMap rfl (fun _ _ => Iff.rfl) fun _ hk _ => hk
    rw [← Option.some.inj ht]
    exact KeptByCursors.foldl allLanes (fun l hu => KeptByCursors.foldl allRoles (fun r hv => hv.shootCursor page l r) hu)
      (hentry.staleOnShootdown page)

end

/-- After either reset every cursor is UNSET, the queue is empty and the map unit is free (R46). -/
theorem State.unitSound_of_cleared {s : State} (hlanes : s.lanes = Vector.replicate 12 .reset) (hqueue : s.map.queue = [])
    (hfree : s.map.lookup = none) : s.UnitSound ∅ := by
  have hcursor : ∀ l r, (s.lane l).cursor r = .unset := fun l r => by
    rw [State.lane_of_cleared hlanes, Lane.reset_cursor]
  exact {
    nodup := hqueue ▸ List.nodup_nil
    queued := fun l r => by simp [hqueue, hcursor, Cursor.unset]
    lookedUp := fun l r => iff_of_false (by simp [hcursor, Cursor.unset]) (MapUnit.not_looksUp_of_free hfree l r)
    live := fun k hk => absurd (hfree.symm.trans hk) (Option.some_ne_none k).symm
    unset := fun l r _ => by rw [hcursor]; rfl
    rests := fun l _ _ r => by rw [hcursor]; rfl }

theorem keptByCommands_unitSound : KeptByCommands State.UnitSound where
  toKeptByCursors := keptByCursors_unitSound
  lookupStart hs := hs.lookupStart
  lookupCompletion hs := hs.lookupCompletion
  commitMapEntry hs ht := hs.commitMapEntry ht
  cleared hlanes hqueue hfree := State.unitSound_of_cleared hlanes hqueue hfree

/-- Settles O57: every operation on a cursor changes its status, its request in the queue and the lookup for it together, and
a lane comes to rest only with its cursors released. -/
theorem lookupUnitStaysSound : Obligations.LookupUnitStaysSound :=
  fun _ _ hs ht => State.lookupsSound_iff.mpr (keptByCommands_unitSound.step (State.lookupsSound_iff.mp hs) ht)

end Sys2Proof.Machine
end

section
/-! SUPPORT. Which lanes a set of a signal wakes, and the state their wakes begin in (R121, R124). -/

namespace Sys2Proof.Machine

/-! ### The lanes that wake -/

/-- In an ascending list the member found is the least of those that pass the test. -/
theorem find?_eq_some_iff_least {α : Type} [LinearOrder α] {p : α → Bool} {as : List α} (has : as.Pairwise (· < ·)) {a : α} :
    as.find? p = some a ↔ (a ∈ as ∧ p a = true) ∧ ∀ b ∈ as, p b = true → a ≤ b := by
  have hleast : ∀ {m : α}, as.find? p = some m → ∀ b ∈ as, p b = true → m ≤ b := by
    intro m hm b hb hpb
    obtain ⟨-, before, after, rfl, hbefore⟩ := List.find?_eq_some_iff_append.mp hm
    obtain ⟨-, hrest, -⟩ := List.pairwise_append.mp has
    rcases List.mem_append.mp hb with hmem | hmem
    · exact absurd hpb (by simpa using hbefore b hmem)
    · rcases List.mem_cons.mp hmem with rfl | hmem
      · exact le_refl b
      · exact le_of_lt (List.rel_of_pairwise_cons hrest hmem)
  constructor
  · intro h
    exact ⟨⟨List.mem_of_find?_eq_some h, List.find?_some h⟩, hleast h⟩
  · rintro ⟨⟨hmem, hpa⟩, hlow⟩
    obtain ⟨m, hm⟩ := Option.isSome_iff_exists.mp (List.find?_isSome.mpr ⟨a, hmem, hpa⟩)
    have hle := hlow m (List.mem_of_find?_eq_some hm) (List.find?_some hm)
    rw [hm, le_antisymm (hleast hm a hmem hpa) hle]

/-- A set wakes the non-consuming waiters, and the lowest-numbered consuming one (R124). -/
theorem mem_wokenBy {s : State} {n : SignalId} {l : LaneId} : l ∈ wokenBy s n ↔ isWaiter s n l = true ∧
    (consumes s l = false ∨ ∀ k, isWaiter s n k = true → consumes s k = true → l ≤ k) := by
  have hascending : (allLanes.filter (isWaiter s n)).Pairwise (· < ·) :=
    (show allLanes.Pairwise (· < ·) by decide).filter _
  unfold wokenBy
  simp only [List.mem_filter, mem_allLanes, true_and]
  refine and_congr_right fun hwaits => ?_
  cases hconsumes : consumes s l with
  | false => simp
  | true =>
    rw [Bool.not_true, Bool.false_or, beq_iff_eq, eq_comm, find?_eq_some_iff_least hascending]
    simp [mem_allLanes, hwaits, hconsumes]

/-- Among the lanes woken is a consuming one exactly if the signal has a consuming waiter (R124). -/
theorem any_wokenBy_consumes {s : State} {n : SignalId} :
    (wokenBy s n).any (consumes s) = true ↔ ∃ l, isWaiter s n l = true ∧ consumes s l = true := by
  have hascending : (allLanes.filter (isWaiter s n)).Pairwise (· < ·) :=
    (show allLanes.Pairwise (· < ·) by decide).filter _
  rw [List.any_eq_true]
  constructor
  · rintro ⟨l, hl, hconsumes⟩
    exact ⟨l, wokenBy_waiter hl, hconsumes⟩
  · rintro ⟨l, hwaits, hconsumes⟩
    have hmem : l ∈ allLanes.filter (isWaiter s n) := List.mem_filter.mpr ⟨mem_allLanes l, hwaits⟩
    obtain ⟨m, hm⟩ := Option.isSome_iff_exists.mp (List.find?_isSome.mpr ⟨l, hmem, hconsumes⟩)
    obtain ⟨⟨hm, hfirst⟩, hleast⟩ := (find?_eq_some_iff_least hascending).mp hm
    refine ⟨m, mem_wokenBy.mpr ⟨(List.mem_filter.mp hm).2, .inr fun k hk => ?_⟩, hfirst⟩
    exact hleast k (List.mem_filter.mpr ⟨mem_allLanes k, hk⟩)

/-! ### The state the wakes begin in -/

/-- The signals after a set of one that was clear: unchanged if a waiter consumes it (R124). -/
def State.signalsAfterSet (s : State) (n : SignalId) : Half :=
  if (wokenBy s n).any (consumes s) then s.signals else s.signals ||| BitVec.twoPow 16 n.val

theorem setSignal_of_set {s : State} {n : SignalId} (h : s.signals.getLsbD n.val = true) : setSignal s n = s := if_pos h

theorem setSignal_of_clear {s : State} {n : SignalId} (h : s.signals.getLsbD n.val = false) :
    setSignal s n = (wokenBy s n).foldl completeWait (s.withSignals (s.signalsAfterSet n)) := by
  unfold setSignal State.signalsAfterSet
  dsimp only
  rw [h, if_neg Bool.false_ne_true]
  split <;> rfl

/-- The wakes leave the signals (R125). -/
theorem foldl_completeWait_signals (ls : List LaneId) (s : State) : (ls.foldl completeWait s).signals = s.signals :=
  List.foldlRecOn (motive := fun t => t.signals = s.signals) ls completeWait rfl
    fun t ht l _ => (onlyLane_completeWait t l).signals.trans ht

/-- What each operation of a fold over lanes gives its own lane, every lane of the list has after the fold. -/
theorem foldl_each_lane {f : State → LaneId → State} {holds : LaneId → Lane → Prop} (honly : ∀ t l, OnlyLane l t (f t l))
    (hown : ∀ t l, holds l ((f t l).lane l)) :
    ∀ (ls : List LaneId) (t : State), (∀ k, k ∉ ls → holds k (t.lane k)) → ∀ k, holds k ((ls.foldl f t).lane k)
  | [], _, ht => fun k => ht k List.not_mem_nil
  | l :: ls, t, ht => foldl_each_lane honly hown ls (f t l) fun k hk => by
    by_cases e : k = l
    · exact e ▸ hown t l
    · rw [(honly t l).others k e]
      exact ht k (by simp [e, hk])

end Sys2Proof.Machine
end


section
/-! SUPPORT. Lanes that stall: they wait for a signal that is set, or hold QUEUE while the queue has room. What each operation on
a lane, a signal or the queue makes of them (R123, R124, R137). -/

namespace Sys2Proof.Machine

/-! ### Stalls -/

/-- A WAITING lane whose mask names a signal that is set (R123). -/
def State.StallsOnSignal (s : State) (l : LaneId) : Prop :=
  ∃ w, (s.lane l).state = .waiting ∧ (s.lane l).wait = some w ∧ s.signals &&& w.mask ≠ 0

/-- A lane that holds QUEUE while the queue has room (R137). -/
def State.StallsOnQueue (s : State) (l : LaneId) : Prop :=
  holdsReason (s.lane l) Reasons.queue = true ∧ s.queue.entries.length < 32

theorem State.signalsUnawaited_iff {s : State} : s.signalsUnawaited ↔ ∀ l, ¬ s.StallsOnSignal l := by
  simp only [State.StallsOnSignal, not_exists, not_and, not_not]

theorem State.queueHeldOnlyFull_iff {s : State} : s.queueHeldOnlyFull ↔ ∀ l, ¬ s.StallsOnQueue l := by
  simp only [State.StallsOnQueue, not_and, not_lt]

/-- No lane stalls in `t` that did not stall in `s`. -/
structure NoNewStall (s t : State) : Prop where
  signal : ∀ l, t.StallsOnSignal l → s.StallsOnSignal l
  queue : ∀ l, t.StallsOnQueue l → s.StallsOnQueue l

theorem NoNewStall.refl (s : State) : NoNewStall s s := ⟨fun _ => id, fun _ => id⟩

theorem NoNewStall.trans {s t u : State} (h : NoNewStall s t) (g : NoNewStall t u) : NoNewStall s u :=
  ⟨fun l hl => h.signal l (g.signal l hl), fun l hl => h.queue l (g.queue l hl)⟩

/-- Operations on neither the lanes, the signals nor the queue's entries. -/
theorem NoNewStall.untouched {s t : State} (hlanes : t.lanes = s.lanes := by rfl) (hsignals : t.signals = s.signals := by rfl)
    (hqueue : t.queue.entries = s.queue.entries := by rfl) : NoNewStall s t := by
  constructor <;> intro l hl
  · rwa [State.StallsOnSignal, State.lane_congr hlanes, hsignals] at hl
  · rwa [State.StallsOnQueue, State.lane_congr hlanes, hqueue] at hl

theorem noNewStall_foldl {α : Type} {f : State → α → State} (hf : ∀ t a, NoNewStall t (f t a)) (as : List α) (s : State) :
    NoNewStall s (as.foldl f s) :=
  List.foldlRecOn as f (.refl s) fun t ht a _ => ht.trans (hf t a)

/-! ### One lane -/

/-- A lane that neither waits nor holds QUEUE. -/
structure Lane.Free (x : Lane) : Prop where
  awake : x.state ≠ .waiting
  unheld : holdsReason x Reasons.queue = false

/-- A lane context that waits for no other signals than `x`, and holds QUEUE only if `x` does. -/
structure Lane.EasedTo (x y : Lane) : Prop where
  wait : y.state = .waiting → x.state = .waiting ∧ y.wait.map Wait.mask = x.wait.map Wait.mask
  queue : holdsReason y Reasons.queue = true → holdsReason x Reasons.queue = true

theorem Lane.Free.easedTo {y : Lane} (h : y.Free) (x : Lane) : x.EasedTo y :=
  ⟨fun e => absurd e h.awake, fun e => absurd (h.unheld.symm.trans e) Bool.false_ne_true⟩

theorem Lane.Free.of_core {x y : Lane} (h : x.Free) (e : y.core = x.core) : y.Free := by
  have hstate : y.state = x.state := (congrArg Lane.state e : y.core.state = x.core.state)
  have hreasons : y.reasons = x.reasons := (congrArg Lane.reasons e : y.core.reasons = x.core.reasons)
  have hresume : y.resume = x.resume := (congrArg Lane.resume e : y.core.resume = x.core.resume)
  exact ⟨hstate ▸ h.awake, by rw [holdsReason, hstate, hreasons, hresume]; exact h.unheld⟩

/-- A HALTED lane waits for nothing but what its resume state holds (R38). -/
theorem Lane.free_of_halted {x : Lane} (hstate : x.state = .halted) (hresume : (Resume.held x.resume).queue = false) :
    x.Free :=
  ⟨by simp [hstate], by rw [holdsReason, hstate]; exact hresume⟩

theorem Lane.easedTo_of_parts {x y : Lane} (hstate : y.state = x.state := by rfl) (hreasons : y.reasons = x.reasons := by rfl)
    (hresume : y.resume = x.resume := by rfl) (hwait : y.wait.map Wait.mask = x.wait.map Wait.mask := by rfl) :
    x.EasedTo y := by
  refine ⟨fun e => ⟨hstate ▸ e, hwait⟩, fun e => ?_⟩
  rwa [holdsReason, hstate, hreasons, hresume] at e

theorem Lane.easedTo_of_core {x y : Lane} (h : y.core = x.core) : x.EasedTo y :=
  Lane.easedTo_of_parts (congrArg Lane.state h : y.core.state = x.core.state)
    (congrArg Lane.reasons h : y.core.reasons = x.core.reasons) (congrArg Lane.resume h : y.core.resume = x.core.resume)
    (congrArg (fun z : Lane => z.wait.map Wait.mask) h : y.core.wait.map Wait.mask = x.core.wait.map Wait.mask)

/-- Lanes that ease, while the signals stay and the queue does not shrink. -/
theorem noNewStall_of_easedTo {s t : State} (hlanes : ∀ k, (s.lane k).EasedTo (t.lane k)) (hsignals : t.signals = s.signals)
    (hqueue : s.queue.entries.length ≤ t.queue.entries.length) : NoNewStall s t := by
  constructor
  · rintro l ⟨w, hstate, hwait, hset⟩
    obtain ⟨hwaits, hmask⟩ := (hlanes l).wait hstate
    rw [hwait, Option.map_some] at hmask
    obtain ⟨v, hv, hsame⟩ := Option.map_eq_some_iff.mp hmask.symm
    exact ⟨v, hwaits, hv, by rwa [hsame, ← hsignals]⟩
  · rintro l ⟨hheld, hroom⟩
    exact ⟨(hlanes l).queue hheld, Nat.lt_of_le_of_lt hqueue hroom⟩

/-- An operation on one lane that, if the lane stalls after it, stalled before. -/
theorem OnlyLane.noNewStall_of {l : LaneId} {s t : State} (h : OnlyLane l s t)
    (hsignal : t.StallsOnSignal l → s.StallsOnSignal l) (hqueue : t.StallsOnQueue l → s.StallsOnQueue l) :
    NoNewStall s t := by
  constructor <;> intro k hk <;> by_cases e : k = l
  · exact e ▸ hsignal (e ▸ hk)
  · rwa [State.StallsOnSignal, h.others k e, h.signals] at hk
  · exact e ▸ hqueue (e ▸ hk)
  · rwa [State.StallsOnQueue, h.others k e, h.queue] at hk

theorem OnlyLane.noNewStall {l : LaneId} {s t : State} (h : OnlyLane l s t) (hl : (s.lane l).EasedTo (t.lane l)) :
    NoNewStall s t := by
  refine noNewStall_of_easedTo (fun k => ?_) h.signals (by rw [h.queue])
  by_cases e : k = l
  · exact e ▸ hl
  · rw [h.others k e]
    exact Lane.easedTo_of_parts

theorem OnlyLane.noNewStall_free {l : LaneId} {s t : State} (h : OnlyLane l s t) (hl : (t.lane l).Free) : NoNewStall s t :=
  h.noNewStall (hl.easedTo _)

/-- An operation on one lane that changes nothing a stall is read from. -/
theorem OnlyLane.noNewStall_cores {l : LaneId} {s t : State} (h : OnlyLane l s t) (hcores : SameCores s t) :
    NoNewStall s t :=
  h.noNewStall (Lane.easedTo_of_core (hcores l))

/-- An update of one lane that eases it. -/
theorem noNewStall_updLane {s : State} {l : LaneId} {f : Lane → Lane} (hl : (s.lane l).EasedTo (f (s.lane l))) :
    NoNewStall s (s.updLane l f) :=
  (onlyLane_updLane l s f).noNewStall (by rwa [State.lane_updLane_same])

theorem noNewStall_retarget (s : State) (l : LaneId) (r : Role) (page : BitVec 7) : NoNewStall s (retarget s l r page) :=
  (onlyLane_retarget s l r page).noNewStall_cores (sameCores_retarget s l r page)

theorem noNewStall_release (s : State) (l : LaneId) (r : Role) : NoNewStall s (release s l r) :=
  (onlyLane_release s l r).noNewStall_cores (sameCores_release s l r)

theorem noNewStall_dropCopy (s : State) (l : LaneId) : NoNewStall s (dropCopy s l) :=
  (onlyLane_dropCopy s l).noNewStall_cores (sameCores_dropCopy s l)

/-! ### Entries into lane states -/

theorem Lane.free_haltedBy (x : Lane) (reason : HaltReason) {resume : Resume} (h : (Resume.held (some resume)).queue = false) :
    (x.haltedBy reason resume).Free :=
  Lane.free_of_halted rfl h

theorem Lane.free_faultedWith (x : Lane) (f : FaultRecord) : (x.faultedWith f).Free := ⟨nofun, rfl⟩

/-- A settled lane holds QUEUE only if it settles with it (R23). -/
theorem Lane.settled_holdsQueue {x : Lane} {reasons : Reasons} (h : holdsReason (x.settled reasons) Reasons.queue = true) :
    reasons.queue = true := by
  unfold Lane.settled at h
  dsimp only at h
  split at h
  · contradiction
  · exact h

theorem Lane.settled_not_waiting (x : Lane) (reasons : Reasons) : (x.settled reasons).state ≠ .waiting := by
  rcases x.settled_state reasons with e | e <;> simp [e]

theorem Lane.free_settled (x : Lane) {reasons : Reasons} (h : reasons.queue = false) : (x.settled reasons).Free :=
  ⟨x.settled_not_waiting reasons, Bool.eq_false_iff.mpr fun e => absurd (Lane.settled_holdsQueue e) (by simp [h])⟩

theorem settle_lane (s : State) (l : LaneId) (reasons : Reasons) :
    (settle s l reasons).lane l = (s.lane l).settled reasons := by
  rw [settle_settled, State.lane_setLane_same]

theorem noNewStall_settle_empty (s : State) (l : LaneId) : NoNewStall s (settle s l .empty) :=
  (onlyLane_settle s l .empty).noNewStall_free (by rw [settle_lane]; exact Lane.free_settled _ rfl)

/-- A lane settles with QUEUE only at a full queue (R133). -/
theorem noNewStall_settle {s : State} (l : LaneId) {reasons : Reasons}
    (h : reasons.queue = true → 32 ≤ s.queue.entries.length) : NoNewStall s (settle s l reasons) := by
  refine (onlyLane_settle s l reasons).noNewStall_of ?_ ?_
  · rintro ⟨w, hstate, -⟩
    rw [settle_lane] at hstate
    exact absurd hstate (Lane.settled_not_waiting _ reasons)
  · rintro ⟨hheld, hroom⟩
    rw [settle_lane] at hheld
    exact absurd (h (Lane.settled_holdsQueue hheld)) (Nat.not_le.mpr hroom)

theorem free_enterHalted (s : State) (l : LaneId) (reason : HaltReason) {resume : Resume}
    (h : (Resume.held (some resume)).queue = false) : ((enterHalted s l reason resume).lane l).Free := by
  rw [(leaves_enterHalted rfl reason resume).lane]
  exact Lane.free_haltedBy _ reason h

theorem noNewStall_enterHalted (s : State) (l : LaneId) (reason : HaltReason) {resume : Resume}
    (h : (Resume.held (some resume)).queue = false) : NoNewStall s (enterHalted s l reason resume) :=
  (onlyLane_enterHalted s l reason resume).noNewStall_free (free_enterHalted s l reason h)

/-- A lane halted while BLOCKED holds the reasons it was BLOCKED on (R30). -/
theorem noNewStall_haltNow (s : State) (l : LaneId) : NoNewStall s (haltNow s l) := by
  unfold haltNow
  split
  · exact noNewStall_enterHalted s l .host rfl
  · next hstate =>
    refine (onlyLane_enterHalted s l _ _).noNewStall ?_
    rw [(leaves_enterHalted rfl _ _).lane]
    exact ⟨nofun, fun e => by rw [holdsReason, hstate]; exact e⟩
  · exact noNewStall_enterHalted s l .host rfl
  · exact .refl s

theorem free_enterFaulted (s : State) (l : LaneId) (f : FaultRecord) : ((enterFaulted s l f).lane l).Free := by
  rw [enterFaulted, State.lane_setInt, State.lane_updLane_same]
  exact ⟨nofun, rfl⟩

theorem noNewStall_enterFaulted (s : State) (l : LaneId) (f : FaultRecord) : NoNewStall s (enterFaulted s l f) :=
  (onlyLane_enterFaulted s l f).noNewStall_free (free_enterFaulted s l f)

theorem noNewStall_asyncFault (s : State) (l : LaneId) (cause : FaultCause) (role : Role) :
    NoNewStall s (asyncFault s l cause role) := by
  unfold asyncFault
  dsimp only
  split
  · split
    · exact noNewStall_updLane Lane.easedTo_of_parts
    · exact noNewStall_enterFaulted s l _
  · exact noNewStall_enterFaulted s l _
  · exact noNewStall_enterFaulted s l _
  · exact noNewStall_enterFaulted s l _
  · exact .refl s

theorem noNewStall_clearLane (s : State) (l : LaneId) {into : LaneState} (hinto : into = .off ∨ into = .idle)
    (config : LaneConfig) : NoNewStall s (clearLane s l into config) := by
  refine (onlyLane_clearLane s l into config).noNewStall_free ?_
  rw [clearLane, State.lane_updLane_same]
  rcases hinto with rfl | rfl <;> exact ⟨nofun, rfl⟩

theorem noNewStall_enterIdleAtStop (s : State) (l : LaneId) : NoNewStall s (enterIdleAtStop s l) := by
  refine (onlyLane_enterIdleAtStop s l).noNewStall_free ?_
  rw [enterIdleAtStop, State.lane_updLane_same]
  exact ⟨nofun, rfl⟩

/-! ### Verdicts and the completion of a WAIT -/

/-- A verdict makes the lane wait only for signals that are clear, and for room only at a full queue (R78, R133). -/
def Verdict.Grounded (s : State) : Verdict → Prop
  | .run reasons _ => reasons.queue = true → 32 ≤ s.queue.entries.length
  | .waiting w => s.signals &&& w.mask = 0
  | _ => True

theorem noNewStall_applyVerdict {s : State} (l : LaneId) {v : Verdict} (h : v.Grounded s) (step : Bool) :
    NoNewStall s (applyVerdict s l step v) := by
  cases v with
  | run reasons portWait =>
    have hport : NoNewStall s (s.updLane l fun x => { x with portWait := portWait }) :=
      noNewStall_updLane Lane.easedTo_of_parts
    exact hport.trans (noNewStall_settle l h)
  | completed =>
    cases step with
    | false => exact noNewStall_settle_empty s l
    | true => exact noNewStall_enterHalted s l .step rfl
  | waiting w =>
    refine (onlyLane_applyVerdict s l step (.waiting w)).noNewStall_of ?_ ?_
    · rintro ⟨v, -, hwait, hset⟩
      rw [applyVerdict, State.lane_updLane_same] at hwait
      exact absurd (Option.some.inj hwait ▸ h) hset
    · rintro ⟨hheld, -⟩
      rw [applyVerdict, State.lane_updLane_same] at hheld
      contradiction
  | breakHalt => exact noNewStall_enterHalted s l .breakFlag rfl
  | idle => exact noNewStall_enterIdleAtStop s l
  | fault f => exact noNewStall_enterFaulted s l f

theorem noNewStall_completeAdvance (s : State) (l : LaneId) : NoNewStall s (completeAdvance s l).1 :=
  (onlyLane_completeAdvance s l).noNewStall_cores (sameCores_completeAdvance s l)

/-- A completion with an advance completes the record or faults (R16). -/
theorem completeAdvance_verdict (s : State) (l : LaneId) :
    (completeAdvance s l).2 = .completed ∨ ∃ f, (completeAdvance s l).2 = .fault f := by
  unfold completeAdvance
  dsimp only
  split
  · exact .inr ⟨_, rfl⟩
  · exact .inl rfl

/-- A lane whose WAIT has completed neither waits nor holds QUEUE (R125). -/
theorem free_completeWait (s : State) (l : LaneId) : ((completeWait s l).lane l).Free := by
  unfold completeWait
  dsimp only
  generalize (s.updLane l fun x => { x with wait := none }) = t
  generalize (t.lane l).config.step = step
  rcases completeAdvance_verdict t l with e | ⟨f, e⟩ <;> rw [e]
  · cases step with
    | false =>
      rw [applyVerdict, if_neg Bool.false_ne_true, settle_lane]
      exact Lane.free_settled _ rfl
    | true => exact free_enterHalted _ l .step rfl
  · exact free_enterFaulted _ l f

theorem noNewStall_completeWait (s : State) (l : LaneId) : NoNewStall s (completeWait s l) :=
  (onlyLane_completeWait s l).noNewStall_free (free_completeWait s l)

/-! ### Releases of block reasons -/

/-- The removal of reasons gives a lane none (R23, R38). -/
theorem noNewStall_removeReason (s : State) (l : LaneId) {remove : Reasons → Reasons}
    (hkeep : ∀ h, (remove h).queue = true → h.queue = true) : NoNewStall s (removeReason s l remove) := by
  unfold removeReason
  dsimp only
  split
  · next hstate =>
    split
    · exact noNewStall_settle_empty s l
    · refine noNewStall_updLane ⟨fun e => by simp [hstate] at e, fun e => ?_⟩
      rw [holdsReason, hstate] at e ⊢
      exact hkeep _ e
  · next hstate =>
    split
    · next held hresume =>
      refine noNewStall_updLane ⟨fun e => by simp [hstate] at e, fun e => ?_⟩
      rw [holdsReason, hstate] at e ⊢
      rw [hresume]
      refine hkeep held ?_
      dsimp only at e
      split at e
      · contradiction
      · exact e
    · exact .refl s
  · exact .refl s

theorem noNewStall_releaseLanes (s : State) (p : PortId) (dir : Direction) : NoNewStall s (releaseLanes s p dir) := by
  unfold releaseLanes
  refine noNewStall_foldl (fun t l => ?_) allLanes s
  split
  · have hwait : NoNewStall t (t.updLane l fun x => { x with portWait := none }) :=
      noNewStall_updLane Lane.easedTo_of_parts
    exact hwait.trans (noNewStall_removeReason _ l fun _ => id)
  · exact .refl t

theorem noNewStall_faultWaiters (s : State) (p : PortId) (dir : Direction) (role : Role) :
    NoNewStall s (faultWaiters s p dir role) := by
  unfold faultWaiters
  refine noNewStall_foldl (fun t l => ?_) allLanes s
  split
  · exact noNewStall_asyncFault t l .portOff role
  · exact .refl t

/-- A lane that loses QUEUE holds it no longer (R137). -/
theorem removeReason_queue_unheld (s : State) (l : LaneId) :
    holdsReason ((removeReason s l fun h => { h with queue := false }).lane l) Reasons.queue = false := by
  unfold removeReason
  dsimp only
  split
  · next hstate =>
    split
    · rw [settle_lane]
      exact (Lane.free_settled _ rfl).unheld
    · rw [State.lane_updLane_same, holdsReason, hstate]
  · next hstate =>
    split
    · rw [State.lane_updLane_same, holdsReason, hstate]
      dsimp only
      split <;> rfl
    · next hresume =>
      rw [holdsReason, hstate]
      dsimp only
      unfold Resume.held
      split
      · next held e => exact absurd e (hresume held)
      · rfl
  · next hblocked hhalted =>
    unfold holdsReason
    split
    · contradiction
    · contradiction
    · rfl

/-- After the release no lane holds QUEUE (R137). -/
theorem releaseQueue_unheld (s : State) (l : LaneId) : holdsReason ((releaseQueue s).lane l) Reasons.queue = false := by
  unfold releaseQueue
  refine foldl_each_lane (holds := fun _ x => holdsReason x Reasons.queue = false) (fun t l => ?_) (fun t l => ?_) allLanes s
    (fun k hk => absurd (mem_allLanes k) hk) l
  · split
    · exact onlyLane_removeReason t l _
    · exact .refl l t
  · split
    · exact removeReason_queue_unheld t l
    · next hfree => exact Bool.eq_false_iff.mpr hfree

/-- A pop that shortens the queue releases every lane that holds QUEUE (R136, R137). -/
theorem noNewStall_popQueue (s : State) : NoNewStall s (popQueue s) := by
  unfold popQueue
  split
  · exact .untouched
  · next e rest _ =>
    have hrelease : NoNewStall { s with queue := { s.queue with entries := rest } }
        (releaseQueue { s with queue := { s.queue with entries := rest } }) := by
      unfold releaseQueue
      refine noNewStall_foldl (fun t l => ?_) allLanes _
      split
      · exact noNewStall_removeReason t l fun _ => nofun
      · exact .refl t
    exact ⟨hrelease.signal, fun l hl => absurd (hl.1.symm.trans (releaseQueue_unheld _ l)) (by decide)⟩

/-! ### Sets of signals -/

/-- A signal that a mask does not name makes no difference to what of the mask is set. -/
theorem or_twoPow_and {signals mask : Half} {n : SignalId} (h : mask.getLsbD n.val = false) :
    (signals ||| BitVec.twoPow 16 n.val) &&& mask = signals &&& mask := by
  refine BitVec.eq_of_getLsbD_eq fun i hi => ?_
  rw [BitVec.getLsbD_and, BitVec.getLsbD_and, BitVec.getLsbD_or, BitVec.getLsbD_twoPow]
  by_cases e : n.val = i
  · rw [← e, h, Bool.and_false, Bool.and_false]
  · simp [e]

/-- A set wakes every waiter of the signal, or is consumed, so that no lane waits on for a signal that it sets (R123, R124). -/
theorem noNewStall_setSignal (s : State) (n : SignalId) : NoNewStall s (setSignal s n) := by
  cases hset : s.signals.getLsbD n.val with
  | true =>
    rw [setSignal_of_set hset]
    exact .refl s
  | false =>
    have honly := onlyLanes_foldl onlyLane_completeWait (wokenBy s n) (s.withSignals (s.signalsAfterSet n)) fun _ => id
    have hwoken : ∀ k, k ∈ wokenBy s n → (((wokenBy s n).foldl completeWait (s.withSignals (s.signalsAfterSet n))).lane k).Free :=
      foldl_each_lane (holds := fun k x => k ∈ wokenBy s n → x.Free) onlyLane_completeWait
        (fun t l _ => free_completeWait t l) _ _ fun k hk hmem => absurd hmem hk
    have hsignals := foldl_completeWait_signals (wokenBy s n) (s.withSignals (s.signalsAfterSet n))
    rw [setSignal_of_clear hset]
    generalize (wokenBy s n).foldl completeWait (s.withSignals (s.signalsAfterSet n)) = t at honly hwoken hsignals
    constructor
    · rintro l ⟨w, hstate, hwait, hstalls⟩
      have hasleep : l ∉ wokenBy s n := fun hmem => (hwoken l hmem).awake hstate
      rw [honly.others l hasleep] at hstate hwait
      refine ⟨w, hstate, hwait, ?_⟩
      rw [hsignals] at hstalls
      change s.signalsAfterSet n &&& w.mask ≠ 0 at hstalls
      unfold State.signalsAfterSet at hstalls
      split at hstalls
      · exact hstalls
      · next hnone =>
        rwa [or_twoPow_and] at hstalls
        by_contra hnamed
        have hwaits : isWaiter s n l = true := by
          change (s.lane l).state = .waiting at hstate
          change (s.lane l).wait = some w at hwait
          simpa [isWaiter, hstate, hwait] using hnamed
        refine hasleep (mem_wokenBy.mpr ⟨hwaits, .inl (Bool.eq_false_iff.mpr fun hconsumes => ?_)⟩)
        exact hnone (any_wokenBy_consumes.mpr ⟨l, hwaits, hconsumes⟩)
    · rintro l ⟨hheld, hroom⟩
      have hasleep : l ∉ wokenBy s n := fun hmem => absurd ((hwoken l hmem).unheld.symm.trans hheld) Bool.false_ne_true
      rw [honly.others l hasleep] at hheld
      rw [honly.queue] at hroom
      exact ⟨hheld, hroom⟩

theorem noNewStall_setSignals (s : State) (mask : Half) : NoNewStall s (setSignals s mask) := by
  unfold setSignals
  refine noNewStall_foldl (fun t n => ?_) allSignals s
  split
  · exact noNewStall_setSignal t n
  · exact .refl t

/-- A clear of signals makes no lane stall (R122). -/
theorem noNewStall_clear (s : State) (kept : Half) : NoNewStall s (s.withSignals (s.signals &&& kept)) := by
  refine ⟨fun l => ?_, fun l => id⟩
  rintro ⟨w, hstate, hwait, hset⟩
  refine ⟨w, hstate, hwait, fun hnone => hset ?_⟩
  change s.signals &&& kept &&& w.mask = 0
  rw [BitVec.and_assoc, BitVec.and_comm kept, ← BitVec.and_assoc, hnone]
  exact BitVec.zero_and

/-- A wait that no set signal satisfies names none (R78). -/
theorem satisfyWait_eq_none {s : State} {mask : Half} {consume : Bool} (h : satisfyWait s mask consume = none) :
    s.signals &&& mask = 0 := by
  unfold satisfyWait at h
  split at h
  · contradiction
  · next hnone =>
    refine BitVec.eq_of_getLsbD_eq fun i hi => ?_
    have hclear := List.find?_eq_none.mp hnone ⟨i, hi⟩ (mem_allSignals _)
    simpa using hclear

/-- A push that is not made has met a full queue (R133). -/
theorem full_of_push_none {s : State} {l : LaneId} {kind : EntryKind} {tag : Half} (h : push s l kind tag = none) :
    32 ≤ s.queue.entries.length := by
  by_contra hroom
  rw [push_eq (Nat.lt_of_not_le hroom)] at h
  contradiction

theorem noNewStall_pushed (s : State) (l : LaneId) (kind : EntryKind) (tag : Half) : NoNewStall s (s.pushed l kind tag) :=
  noNewStall_of_easedTo (fun _ => Lane.easedTo_of_parts) rfl (by simp [State.pushed, State.queueWith])

end Sys2Proof.Machine
end


section
/-! SUPPORT. The end of a beat makes no lane stall: its results are of operations that make none stall, and its verdict leaves
the beat's lane waiting only for what is not there (R72, R78, R123, R133). -/

namespace Sys2Proof.Machine

theorem keptByResults_noNewStall (s : State) (l : LaneId) : KeptByResults l (NoNewStall s) where
  updLane h hf := h.trans (noNewStall_updLane (Lane.easedTo_of_core (hf _).1))
  retarget r page h := h.trans (noNewStall_retarget _ l r page)
  release r h := h.trans (noNewStall_release _ l r)
  dropCopy h := h.trans (noNewStall_dropCopy _ l)
  pushed kind tag h := h.trans (noNewStall_pushed _ l kind tag)
  setSignal n h := h.trans (noNewStall_setSignal _ n)
  clearSignal _ h := h.trans (noNewStall_clear _ _)

/-! ### The verdicts of the results -/

/-- Results whose verdict is grounded in the state they leave. -/
def GroundedResult (result : State × Verdict) : Prop := result.2.Grounded result.1

section
variable (s : State) (l : LaneId) (r : RecordCopy)

theorem grounded_goOn : GroundedResult (s, .goOn) := nofun

theorem grounded_completeAdvance : GroundedResult (completeAdvance s l) := by
  unfold GroundedResult
  rcases completeAdvance_verdict s l with e | ⟨f, e⟩ <;> rw [e] <;> trivial

theorem grounded_beginResolution (target : ResolveTarget) (cell : LAddr) :
    GroundedResult (beginResolution s l target cell) := grounded_goOn _

theorem grounded_setUpTransfer (source destination : LAddr) : GroundedResult (setUpTransfer s l r source destination) :=
  grounded_goOn _

theorem grounded_actLink (target : LAddr) (hops : Nat) (finish : State → State) :
    GroundedResult (actLink s l r target hops finish) := by
  unfold actLink
  dsimp only
  split
  · exact trivial
  · exact trivial
  · exact grounded_completeAdvance _ l

theorem grounded_dispatchMove : GroundedResult (dispatchMove s l r) := by
  unfold dispatchMove
  dsimp only
  split
  · exact grounded_beginResolution _ l _ _
  · split
    · exact grounded_beginResolution _ l _ _
    · exact grounded_setUpTransfer s l r _ _

theorem grounded_dispatchLink : GroundedResult (dispatchLink s l r) := by
  unfold dispatchLink
  split
  · exact grounded_beginResolution s l _ _
  · exact grounded_actLink s l r _ _ _

variable {s l} in
/-- A push is held only at a full queue (R133). -/
theorem grounded_takePendingPost {kind : EntryKind} {tag : Half} (h : push s l kind tag = none) :
    GroundedResult (takePendingPost s l kind tag) := by
  have hfull := full_of_push_none h
  exact fun _ => hfull

theorem grounded_dispatchPost : GroundedResult (dispatchPost s l r) := by
  unfold dispatchPost
  split
  · exact grounded_completeAdvance _ l
  · next h => exact grounded_takePendingPost h

theorem grounded_dispatchStop : GroundedResult (dispatchStop s l r) := by
  unfold dispatchStop
  split
  · split
    · exact trivial
    · next h => exact grounded_takePendingPost h
  · exact trivial

/-- A WAIT waits only if no signal of its mask is set (R78, R123). -/
theorem grounded_dispatchWait : GroundedResult (dispatchWait s l r) := by
  unfold dispatchWait
  split
  · exact grounded_completeAdvance _ l
  · next h =>
    have hnone : s.signals &&& r.mask = 0 := satisfyWait_eq_none h
    exact hnone

theorem grounded_dispatchRecord : GroundedResult (dispatchRecord s l r) := by
  unfold dispatchRecord
  split
  · exact grounded_dispatchMove s l r
  · exact grounded_dispatchLink s l r
  · exact grounded_dispatchPost s l r
  · exact grounded_dispatchWait s l r
  · exact grounded_completeAdvance _ l
  · exact grounded_dispatchStop s l r
  · exact grounded_goOn s

theorem grounded_loadResult : GroundedResult (loadResult s l r) := by
  unfold loadResult
  dsimp only
  split
  · exact trivial
  · split
    · exact trivial
    · exact grounded_dispatchRecord s l r

theorem grounded_resolveResult (cell : Word) : GroundedResult (resolveResult s l r cell) := by
  unfold resolveResult
  dsimp only
  split
  · exact trivial
  · split
    · split
      · exact trivial
      · exact grounded_goOn _
    · split
      · split
        · exact grounded_beginResolution _ l _ _
        · exact grounded_setUpTransfer _ l r _ _
      · exact grounded_setUpTransfer _ l r _ _
      · split
        · exact grounded_actLink s l r _ _ _
        · exact trivial

theorem grounded_completeMove : GroundedResult (completeMove s l r) := grounded_completeAdvance _ l

theorem grounded_finishMove : GroundedResult (finishMove s l r) := by
  unfold finishMove
  split
  · split
    · exact grounded_completeMove _ l r
    · next h => exact grounded_takePendingPost h
  · exact grounded_completeMove s l r

/-- A stop makes the lane wait for a port at most (R84 to R87). -/
theorem grounded_transferResult (src dst : BeatCursor) (stop : Stop) :
    GroundedResult (transferResult s l r src dst stop) := by
  unfold transferResult
  dsimp only
  cases stop with
  | finish => exact grounded_finishMove s l r
  | burst => exact grounded_goOn s
  | crossing => exact grounded_goOn _
  | portOff role => exact trivial
  | portEmpty q =>
    dsimp only
    split
    · exact trivial
    · split <;> exact nofun
  | portFull q =>
    dsimp only
    split
    · exact trivial
    · split <;> exact nofun
  | range role => exact trivial

theorem grounded_finishResult (held : PendingPost) : GroundedResult (finishResult s l r held) := by
  unfold finishResult
  split
  · next h => exact fun _ => full_of_push_none h
  · split
    · exact grounded_completeMove _ l r
    · exact trivial
    · exact grounded_completeAdvance _ l

theorem grounded_beatResult (work : BeatWork) : GroundedResult (beatResult s l work) := by
  unfold beatResult
  split
  · exact grounded_loadResult s l _
  · exact grounded_dispatchRecord s l _
  · exact grounded_resolveResult s l _ _
  · exact grounded_transferResult s l _ _ _ _
  · split
    · exact grounded_finishResult s l _ _
    · exact grounded_goOn s
  · exact grounded_goOn s

end

/-! ### The beat end -/

theorem noNewStall_takeDeferred {s : State} (l : LaneId) {v : Verdict} (h : v.Grounded s) (held : Option Deferred)
    (step : Bool) : NoNewStall s (takeDeferred s l held step v) := by
  unfold takeDeferred
  split
  · exact noNewStall_applyVerdict l h step
  · exact noNewStall_clearLane s l (.inr rfl) _
  · exact (noNewStall_applyVerdict l h step).trans (noNewStall_haltNow _ l)
  · split
    · exact noNewStall_applyVerdict l h step
    · exact noNewStall_applyVerdict l h step
    · exact noNewStall_enterFaulted s l _

theorem noNewStall_countBeat (s : State) (l : LaneId) : NoNewStall s (countBeat s l) :=
  noNewStall_updLane Lane.easedTo_of_parts

theorem noNewStall_taken (s : State) (b : Beat) : NoNewStall s (s.taken b) := by
  have hended : NoNewStall s { s with beat := none } := .untouched
  refine hended.trans ((leaves_taken s b).noNewStall ?_)
  rw [State.taken_lane]
  exact Lane.easedTo_of_parts

theorem noNewStall_beatEnd (s : State) : NoNewStall s (beatEnd s) := by
  cases hb : s.beat with
  | none => simpa [beatEnd, hb] using NoNewStall.refl s
  | some b =>
    cases hover : b.work.over with
    | false => simpa [beatEnd, hb, hover] using NoNewStall.refl s
    | true =>
      have hresults : NoNewStall s (s.results b).1 :=
        ((keptByResults_noNewStall s b.lane).beatResult (noNewStall_taken s b) b.work).state
      have hverdict : (s.results b).2.Grounded (countBeat (s.results b).1 b.lane) :=
        grounded_beatResult (s.taken b) b.lane b.work
      rw [beatEnd_over hb hover]
      exact (hresults.trans (noNewStall_countBeat _ b.lane)).trans (noNewStall_takeDeferred b.lane hverdict _ _)

end Sys2Proof.Machine
end


section
/-! CERTIFICATE. Every step keeps it so that no WAITING lane's mask names a set signal, and that the queue is full while a lane
holds QUEUE (R123, R124, R137); O56. -/

namespace Sys2Proof.Machine

/-! ### The slot tick -/

theorem Lane.easedTo_countedDown (x : Lane) : x.EasedTo x.countedDown := by
  unfold Lane.countedDown
  split
  · next w h =>
    obtain ⟨-, hwait, -⟩ := countedWait_some h
    exact Lane.easedTo_of_parts (hwait := by rw [hwait]; rfl)
  · exact Lane.easedTo_of_parts

/-- The count of one lane's timeout: it waits on with its mask, completes its WAIT, or is held at a full queue (R126, R127). -/
theorem noNewStall_countTimeout (s : State) (l : LaneId) : NoNewStall s (countTimeout s l) := by
  cases hout : s.timesOut l with
  | false =>
    rw [countTimeout_goes_on hout]
    exact noNewStall_updLane (f := Lane.countedDown) (Lane.easedTo_countedDown _)
  | true =>
    cases hpost : (s.lane l).postsOnTimeout with
    | false =>
      rw [countTimeout_quiet hout hpost]
      exact noNewStall_completeWait s l
    | true =>
      by_cases hroom : s.queue.entries.length < 32
      · rw [countTimeout_posted hout hpost hroom]
        exact (noNewStall_pushed s l _ _).trans (noNewStall_completeWait _ l)
      · rw [countTimeout_held hout hpost (Nat.le_of_not_lt hroom)]
        refine (onlyLane_updLane l s Lane.timeoutHeld).noNewStall_of ?_ fun hstalls => absurd hstalls.2 hroom
        rintro ⟨w, hstate, -⟩
        rw [State.lane_updLane_same] at hstate
        contradiction

theorem noNewStall_slotTick (s : State) : NoNewStall s (slotTick s) := by
  cases hrun : s.wheel.running with
  | false =>
    rw [slotTick_stopped hrun]
    exact .refl s
  | true =>
    have hdecided := slotDecided_decideSlot s
    have hadvanced : NoNewStall s s.tickAdvanced := by
      rw [tickAdvanced_eq]
      refine noNewStall_of_easedTo (fun k => ?_) (by rw [hdecided.rest]) (by rw [hdecided.rest])
      change (s.lane k).EasedTo ((decideSlot s).lane k)
      rw [hdecided.lanes k]
      exact Lane.easedTo_of_parts
    rw [slotTick_running hrun]
    exact hadvanced.trans (noNewStall_foldl noNewStall_countTimeout allLanes _)

theorem noNewStall_timebaseTick (s : State) : NoNewStall s (timebaseTick s) := by
  unfold timebaseTick
  split
  · split
    · exact noNewStall_slotTick s
    · exact .untouched
  · exact .refl s

theorem noNewStall_waitTimeout (s : State) (l : LaneId) : NoNewStall s (waitTimeout s l) := by
  rcases waitTimeout_cases s l with e | e <;> rw [e]
  · exact noNewStall_slotTick s
  · exact .refl s

/-! ### Lookups and shootdowns -/

theorem noNewStall_enqueue (s : State) (l : LaneId) (r : Role) (page : BitVec 7) : NoNewStall s (s.enqueue l r page) :=
  (onlyLane_enqueue l s r page).noNewStall_cores (sameCores_enqueue s l r page)

theorem noNewStall_setCursor (s : State) (l : LaneId) (r : Role) (c : Cursor) :
    NoNewStall s (s.updLane l fun x => x.setCursor r c) :=
  noNewStall_updLane (Lane.easedTo_of_core (Lane.core_setCursor _ r c))

theorem noNewStall_lookupStart (s : State) : NoNewStall s (lookupStart s) := by
  unfold lookupStart
  split
  · exact (noNewStall_setCursor s _ _ _).trans .untouched
  · exact .refl s

theorem noNewStall_takeMapping (s : State) (l : LaneId) : NoNewStall s (takeMapping s l) := by
  unfold takeMapping
  split
  · exact noNewStall_removeReason s l fun _ => id
  · exact .refl s

theorem noNewStall_failLookup (s : State) (l : LaneId) (r : Role) (cause : FaultCause) :
    NoNewStall s (failLookup s l r cause) := by
  unfold failLookup
  dsimp only
  split
  · exact (noNewStall_asyncFault s l cause r).trans (noNewStall_release _ l r)
  · exact noNewStall_asyncFault s l cause r

theorem noNewStall_lookupCompletion (s : State) : NoNewStall s (lookupCompletion s) := by
  have hfree : NoNewStall s { s with map := { s.map with lookup := none } } := .untouched
  unfold lookupCompletion
  dsimp only
  generalize ({ s with map := { s.map with lookup := none } } : State) = free at hfree
  split
  · exact .refl s
  · split
    · exact hfree
    · exact hfree.trans (noNewStall_enqueue _ _ _ _)
    · split
      · exact hfree.trans ((noNewStall_setCursor _ _ _ _).trans (noNewStall_takeMapping _ _))
      · exact hfree.trans (noNewStall_failLookup _ _ _ _)

theorem noNewStall_loseMapping (s : State) (l : LaneId) : NoNewStall s (loseMapping s l) := by
  unfold loseMapping
  dsimp only
  split
  · exact .refl s
  · split
    · split
      · exact .refl s
      · exact noNewStall_settle_empty s l
    · next hstate =>
      refine noNewStall_updLane ⟨fun e => by simp [hstate] at e, fun e => ?_⟩
      rw [holdsReason, hstate] at e ⊢
      exact e
    · exact .refl s

theorem noNewStall_shootdown (s : State) (page : BitVec 7) : NoNewStall s (shootdown s page) := by
  have hstale : NoNewStall s (staleOnShootdown s page) := by
    rw [staleOnShootdown_eq]
    exact .untouched
  unfold shootdown
  refine hstale.trans (noNewStall_foldl (fun t l => noNewStall_foldl (fun u r => ?_) allRoles t) allLanes _)
  unfold shootCursor
  dsimp only
  split
  · exact (noNewStall_enqueue u l r page).trans (noNewStall_loseMapping _ l)
  · exact .refl u

/-! ### Stream ports -/

theorem noNewStall_frameStart (s : State) (p : PortId) : NoNewStall s (frameStart s p) := by
  have htransmit (t : State) : NoNewStall t (frameStartTransmit t p) := by
    unfold frameStartTransmit
    dsimp only
    split
    · exact .untouched
    · split
      · refine NoNewStall.trans ?_ (noNewStall_releaseLanes _ p .tx)
        split
        · exact .trans .untouched (noNewStall_setSignal _ _)
        · exact .untouched
      · exact .untouched
  unfold frameStart
  dsimp only
  refine NoNewStall.trans ?_ (htransmit _)
  split
  · unfold frameError
    split <;> exact .untouched
  · exact .untouched

theorem noNewStall_offerReceived (s : State) (p : PortId) (w : Word) : NoNewStall s (offerReceived s p w) := by
  unfold offerReceived
  dsimp only
  split
  · exact .refl s
  · split
    · exact .untouched
    · refine NoNewStall.trans ?_ (noNewStall_releaseLanes _ p .rx)
      split
      · exact .trans .untouched (noNewStall_setSignal _ _)
      · exact .untouched

theorem noNewStall_frameEnd (s : State) (p : PortId) (sdi : Bool) : NoNewStall s (frameEnd s p sdi) := by
  unfold frameEnd
  dsimp only
  split
  · exact .trans .untouched (noNewStall_offerReceived _ p _)
  · exact .refl s

theorem noNewStall_sckPeriod (s : State) (p : PortId) (sdi : Bool) : NoNewStall s (sckPeriod s p sdi) := by
  unfold sckPeriod
  dsimp only
  split
  · exact .refl s
  · split
    · exact .untouched
    · exact noNewStall_frameEnd s p sdi

theorem noNewStall_discardHeld (s : State) (p : PortId) : NoNewStall s (discardHeld s p) := by
  unfold discardHeld
  split
  · split
    · split
      · exact .untouched
      · exact .refl s
    · exact .refl s
  · exact .refl s

theorem noNewStall_writePortConfig (s : State) (p : PortId) (v : Half) : NoNewStall s (writePortConfig s p v) := by
  have hrx (t : State) : NoNewStall t (disableRx t p) := .trans .untouched (noNewStall_faultWaiters _ p .rx .src)
  have htx (t : State) : NoNewStall t (disableTx t p) :=
    .trans (.trans .untouched (noNewStall_discardHeld _ p)) (noNewStall_faultWaiters _ p .tx .dst)
  unfold writePortConfig
  dsimp only
  generalize hc : s.updPort p _ = c
  have hset : NoNewStall s c := hc ▸ .untouched
  split
  · refine NoNewStall.trans ?_ (htx _)
    split
    · exact hset.trans (hrx c)
    · exact hset
  · split
    · exact hset.trans (hrx c)
    · exact hset

/-! ### Lane commands -/

/-- A started lane is BLOCKED on MAP alone (R29). -/
theorem noNewStall_startLane (s : State) (l : LaneId) : NoNewStall s (startLane s l).1 := by
  unfold startLane
  split
  · dsimp only
    split
    · exact .refl s
    · split
      · exact .refl s
      · dsimp only
        refine .trans (noNewStall_updLane ?_) (.trans (noNewStall_retarget _ l .walk _) (noNewStall_updLane ?_))
        · exact Lane.easedTo_of_parts
        · refine Lane.Free.easedTo ?_ _
          exact ⟨nofun, rfl⟩
  · exact .refl s

theorem noNewStall_haltLane (s : State) (l : LaneId) : NoNewStall s (haltLane s l).1 := by
  unfold haltLane
  split
  · exact .refl s
  · split
    · split <;> dsimp only
      · refine noNewStall_updLane ?_
        exact Lane.easedTo_of_parts
      · exact noNewStall_haltNow s l
    · exact noNewStall_haltNow s l
    · exact noNewStall_haltNow s l
    · exact .refl s

theorem noNewStall_abortLane (s : State) (l : LaneId) : NoNewStall s (abortLane s l).1 := by
  unfold abortLane
  split
  · exact .refl s
  · split <;> dsimp only
    · refine noNewStall_updLane ?_
      exact Lane.easedTo_of_parts
    · exact noNewStall_clearLane s l (.inr rfl) _
  · exact noNewStall_clearLane s l (.inr rfl) _

/-- A resumed lane goes on with the QUEUE it held, waits only for signals that are clear, or completes its WAIT (R31). -/
theorem noNewStall_resumeHalted {s : State} {l : LaneId} (hstate : (s.lane l).state = .halted) :
    NoNewStall s (resumeHalted s l) := by
  have honly := onlyLane_updLane l s Lane.unhalted
  have hlane := State.lane_updLane_same s l Lane.unhalted
  have hunhalted : NoNewStall s (s.updLane l Lane.unhalted) :=
    honly.noNewStall_free (by rw [hlane]; exact Lane.free_of_halted hstate rfl)
  unfold resumeHalted
  dsimp only
  change NoNewStall s (s.updLane l fun x => { x with haltReason := none, resume := none }) at hunhalted
  change OnlyLane l s (s.updLane l fun x => { x with haltReason := none, resume := none }) at honly
  change (s.updLane l fun x => { x with haltReason := none, resume := none }).lane l = _ at hlane
  generalize (s.updLane l fun x => { x with haltReason := none, resume := none }) = u at honly hlane hunhalted
  split
  · next held hresume =>
    refine (honly.trans (onlyLane_settle u l _)).noNewStall ⟨fun e => ?_, fun e => ?_⟩ <;> rw [settle_lane] at e
    · exact absurd e (Lane.settled_not_waiting _ _)
    · rw [holdsReason, hstate, hresume]
      have hkept : ({ held with map := false } : Reasons).queue = true := Lane.settled_holdsQueue e
      exact hkept
  · next w hresume hw =>
    split
    · next t ht =>
      exact ((keptByResults_noNewStall s l).satisfyWait hunhalted ht).trans (noNewStall_completeWait t l)
    · next hnone =>
      refine (honly.trans (onlyLane_updLane l u _)).noNewStall_of ?_ ?_
      · rintro ⟨v, -, hv, hset⟩
        rw [State.lane_updLane_same, hlane] at hv
        obtain rfl : w = v := Option.some.inj (hw.symm.trans hv)
        exact absurd (satisfyWait_eq_none hnone) hset
      · rintro ⟨hheld, -⟩
        rw [State.lane_updLane_same] at hheld
        contradiction
  · exact hunhalted.trans (noNewStall_settle_empty u l)

theorem noNewStall_laneCommandOf (s : State) (code : BitVec 3) (l : LaneId) : NoNewStall s (laneCommandOf code s l).1 := by
  rcases laneCommandOf_cases code with e | e | e | e | e | e | e <;> rw [e]
  · refine (onlyLane_enableLane s l).noNewStall ?_
    unfold enableLane
    split
    · rw [State.lane_updLane_same]
      refine Lane.Free.easedTo ?_ _
      exact ⟨nofun, rfl⟩
    · exact Lane.easedTo_of_parts
  · unfold disableLane
    split
    case h_4 => exact .refl s
    all_goals exact noNewStall_clearLane s l (.inl rfl) _
  · exact noNewStall_startLane s l
  · exact noNewStall_haltLane s l
  · unfold resumeLane
    split
    · next hstate => exact noNewStall_resumeHalted hstate
    · exact .refl s
  · exact noNewStall_abortLane s l
  · exact .refl s

theorem noNewStall_laneCommand (s : State) (lane : BitVec 4) (code : BitVec 3) :
    NoNewStall s (laneCommand s lane (laneCommandOf code)) := by
  unfold laneCommand
  split
  · exact (noNewStall_laneCommandOf s code _).trans .untouched
  · exact .untouched

/-- A redirected lane is HALTED with resume state ACTIVE (R39). -/
theorem noNewStall_redirectLane {s : State} {l : LaneId} (hstate : (s.lane l).state = .halted) (pointer : LAddr) :
    NoNewStall s (redirectLane s l pointer) := by
  have hreleased : SameCores s (release (release (release (dropCopy s l) l .hop) l .src) l .dst) :=
    (((sameCores_dropCopy s l).trans (sameCores_release _ l .hop)).trans (sameCores_release _ l .src)).trans
      (sameCores_release _ l .dst)
  refine (onlyLane_redirectLane s l pointer).noNewStall_free ?_
  unfold redirectLane
  dsimp only
  rw [retarget_lane, State.lane_updLane_same]
  refine Lane.Free.of_core ?_ (Lane.core_setCursor _ _ _)
  exact Lane.free_of_halted ((hreleased.state l).trans hstate) rfl

theorem noNewStall_writeRecordPointer (s : State) (v : Half) : NoNewStall s (writeRecordPointer s v) := by
  unfold writeRecordPointer
  dsimp only
  split
  · next hstate =>
    split
    · exact noNewStall_redirectLane hstate _
    · exact .untouched
  · exact .untouched

/-! ### Global commands and the window -/

/-- A lane that is OFF waits for nothing (R46). -/
theorem noNewStall_cleared {s t : State} (h : t.lanes = Vector.replicate 12 .reset) : NoNewStall s t := by
  constructor <;> intro l hl
  · obtain ⟨w, hstate, -⟩ := hl
    rw [State.lane_of_cleared h] at hstate
    contradiction
  · obtain ⟨hheld, -⟩ := hl
    rw [State.lane_of_cleared h] at hheld
    contradiction

theorem noNewStall_globalCommandOf (s : State) (code : BitVec 4) : NoNewStall s (globalCommandOf code s).1 := by
  rcases globalCommandOf_cases code with e | e | e | e | e | e <;> rw [e]
  · unfold startWheel
    split
    · exact .refl s
    · split <;> exact .untouched
  · unfold stopWheel
    split <;> exact .untouched
  · unfold rewindWheel
    split <;> exact .untouched
  · exact noNewStall_cleared rfl
  · unfold eraseMemory
    split
    · exact .refl s
    · split <;> exact .untouched
  · exact .refl s

theorem noNewStall_splitLowWrite (s : State) (item : Item32) (v : Half) : NoNewStall s (splitLowWrite s item v) := by
  unfold splitLowWrite
  split
  · exact .untouched
  · split <;> exact .untouched

theorem noNewStall_commitItem {s t : State} {item : Item32} {w : Word} (h : commitItem s item w = some t) :
    NoNewStall s t := by
  cases item with
  | mapEntry page =>
    simp only [commitItem, commitMapEntry] at h
    split at h
    · rw [← Option.some.inj h]
      exact .trans .untouched (noNewStall_shootdown _ page)
    · contradiction
  | idleWord p => exact Option.some.inj h ▸ .untouched
  | aperture a => exact Option.some.inj h ▸ .untouched
  | slotCount => contradiction
  | beats => contradiction

theorem noNewStall_splitHighWrite (s : State) (item : Item32) (v : Half) : NoNewStall s (splitHighWrite s item v) := by
  unfold splitHighWrite
  split
  · exact .untouched
  · split
    · exact .untouched
    · split
      · split
        · next h => exact (noNewStall_commitItem h).trans .untouched
        · exact .untouched
      · exact .untouched

theorem noNewStall_writeScheduleEntry (s : State) (t : Table) (e : Fin 32) (v : Half) :
    NoNewStall s (writeScheduleEntry s t e v) := by
  unfold writeScheduleEntry
  dsimp only
  split
  · exact .untouched
  · split <;> exact .untouched

/-- A host write of any item (R174). -/
theorem noNewStall_writeItem (s : State) (i : Item) (offset : WindowOffset) (v : Half) :
    NoNewStall s (writeItem s i offset v) := by
  unfold writeItem
  split
  · exact (noNewStall_globalCommandOf s _).trans .untouched
  · exact .untouched
  · exact .untouched
  · exact .untouched
  · exact noNewStall_setSignals s v
  · exact noNewStall_clear s _
  · exact .untouched
  · unfold writeSlotPeriod
    split <;> exact .untouched
  · exact noNewStall_laneCommand s _ _
  · exact .untouched
  · unfold writeLaneSelect
    split <;> exact .untouched
  · exact noNewStall_writeRecordPointer s v
  · exact noNewStall_updLane Lane.easedTo_of_parts
  · exact .untouched
  · exact noNewStall_popQueue s
  · exact noNewStall_writePortConfig s _ v
  · exact .untouched
  · exact .untouched
  · exact .untouched
  · exact noNewStall_writeScheduleEntry s _ _ v
  · exact noNewStall_splitLowWrite s _ v
  · exact noNewStall_splitHighWrite s _ v
  · exact .refl s
  · exact .untouched

/-- A host read changes the window at most (R163, R166, R177). -/
theorem noNewStall_readItem (s : State) (i : Item) : NoNewStall s (readItem s i) := by
  unfold readItem
  split
  · unfold splitLowRead
    split <;> exact .untouched
  · unfold splitHighRead
    split <;> exact .untouched
  · exact .untouched
  · exact .untouched

theorem noNewStall_hostReading (s : State) (i : Item) : NoNewStall s (hostReading s fun s => readItem s i) := by
  unfold hostReading
  split
  · exact .untouched
  · exact noNewStall_readItem s i

/-! ### Every command and every step -/

theorem noNewStall_unlessReset {s : State} {f : State → State} (hf : NoNewStall s (f s)) : NoNewStall s (unlessReset s f) :=
  unlessReset_cases (p := NoNewStall s) (.refl s) fun _ => hf

theorem noNewStall_hostAccess (s : State) (offset : WindowOffset) (a : Access) : NoNewStall s (hostAccess s offset a) := by
  cases a with
  | read => exact noNewStall_hostReading s _
  | write v => exact noNewStall_unlessReset (f := fun s => writeItem s _ _ v) (noNewStall_writeItem s _ _ v)

theorem noNewStall_exec (s : State) (c : Instr) : Runs c s (NoNewStall s) := by
  have hlane (lane : BitVec 4) (code : BitVec 3) :
      NoNewStall s (unlessReset s fun s => laneCommand s lane (laneCommandOf code)) :=
    noNewStall_unlessReset (noNewStall_laneCommand s lane code)
  have hglobal (code : BitVec 4) : NoNewStall s (unlessReset s fun s => globalCommand s (globalCommandOf code)) :=
    noNewStall_unlessReset ((noNewStall_globalCommandOf s code).trans .untouched)
  have hwrite (i : Item) (v : Half) : NoNewStall s (unlessReset s fun s => writeItem s i 0 v) :=
    noNewStall_unlessReset (noNewStall_writeItem s i 0 v)
  cases c with
  | enable lane => exact ⟨_, rfl, hlane lane 1⟩
  | disable lane => exact ⟨_, rfl, hlane lane 2⟩
  | start lane => exact ⟨_, rfl, hlane lane 3⟩
  | halt lane => exact ⟨_, rfl, hlane lane 4⟩
  | resume lane => exact ⟨_, rfl, hlane lane 5⟩
  | abort lane => exact ⟨_, rfl, hlane lane 6⟩
  | laneCommandUnknown lane code => exact ⟨_, rfl, hlane lane code⟩
  | wheelStart => exact ⟨_, rfl, hglobal 1⟩
  | wheelStop => exact ⟨_, rfl, hglobal 2⟩
  | wheelRewind => exact ⟨_, rfl, hglobal 3⟩
  | softReset => exact ⟨_, rfl, hglobal 4⟩
  | erase => exact ⟨_, rfl, hglobal 5⟩
  | globalCommandUnknown code => exact ⟨_, rfl, hglobal code⟩
  | clearPassEnd =>
    refine ⟨_, rfl, noNewStall_unlessReset ?_⟩
    unfold clearPassEnd
    split <;> exact .untouched
  | resetAssert => exact ⟨_, rfl, noNewStall_cleared rfl⟩
  | resetRelease =>
    refine ⟨_, rfl, ?_⟩
    unfold resetRelease
    split <;> exact .untouched
  | recordPointerWrite v => exact ⟨_, rfl, hwrite .recordPointer v⟩
  | laneConfigWrite v => exact ⟨_, rfl, hwrite .laneConfig v⟩
  | laneSelectWrite v => exact ⟨_, rfl, hwrite .laneSelect v⟩
  | recordWordsRead => exact ⟨_, rfl, noNewStall_hostReading s .recordWords⟩
  | scheduleEntryWrite table e v => exact ⟨_, rfl, hwrite (.scheduleEntry table e) v⟩
  | slotPeriodWrite v => exact ⟨_, rfl, hwrite .slotPeriod v⟩
  | tableSelectWrite v => exact ⟨_, rfl, hwrite .tableSelect v⟩
  | splitLowRead item => exact ⟨_, rfl, noNewStall_hostReading s (.split item .low)⟩
  | splitHighRead item => exact ⟨_, rfl, noNewStall_hostReading s (.split item .high)⟩
  | splitLowWrite item v => exact ⟨_, rfl, hwrite (.split item .low) v⟩
  | mapEntryCommit page v => exact ⟨_, rfl, hwrite (.split (.mapEntry page) .high) v⟩
  | apertureWordCommit word v => exact ⟨_, rfl, hwrite (.split (.aperture word) .high) v⟩
  | portIdleWordCommit p v => exact ⟨_, rfl, hwrite (.split (.idleWord p) .high) v⟩
  | aperturePageWrite v => exact ⟨_, rfl, hwrite .aperturePage v⟩
  | signalSet v => exact ⟨_, rfl, hwrite .signalSet v⟩
  | signalClear v => exact ⟨_, rfl, hwrite .signalClear v⟩
  | queuePop v => exact ⟨_, rfl, hwrite .queuePop v⟩
  | queueThresholdWrite v => exact ⟨_, rfl, hwrite .queueThreshold v⟩
  | intStatusWrite v => exact ⟨_, rfl, hwrite .intStatus v⟩
  | intEnableWrite v => exact ⟨_, rfl, hwrite .intEnable v⟩
  | portRxEnable p v => exact ⟨_, rfl, hwrite (.portConfig p) _⟩
  | portTxEnable p v => exact ⟨_, rfl, hwrite (.portConfig p) _⟩
  | portRxDisable p v => exact ⟨_, rfl, hwrite (.portConfig p) _⟩
  | portTxDisable p v => exact ⟨_, rfl, hwrite (.portConfig p) _⟩
  | portStatusWrite p v => exact ⟨_, rfl, hwrite (.portStatus p) v⟩
  | portCounterWrite p counter v => exact ⟨_, rfl, hwrite (.portCounter p counter) v⟩
  | registerWrite offset v => exact ⟨_, rfl, noNewStall_hostAccess s offset (.write v)⟩
  | unusedOffsetAccess offset a => exact ⟨_, rfl, noNewStall_hostAccess s offset a⟩
  | slotTick => exact ⟨_, rfl, noNewStall_unlessReset (noNewStall_slotTick s)⟩
  | waitTimeout l => exact ⟨_, rfl, noNewStall_unlessReset (noNewStall_waitTimeout s l)⟩
  | recordLoad words =>
    refine ⟨_, rfl, noNewStall_unlessReset ?_⟩
    rw [recordLoad_frame]
    exact .untouched
  | cellRead =>
    refine ⟨_, rfl, noNewStall_unlessReset ?_⟩
    rw [cellRead_frame]
    exact .untouched
  | wordStep part =>
    refine ⟨_, rfl, noNewStall_unlessReset ?_⟩
    rw [wordStep_frame]
    exact .untouched
  | beatEnd => exact ⟨_, rfl, noNewStall_unlessReset (noNewStall_beatEnd s)⟩
  | lookupStart => exact ⟨_, rfl, noNewStall_unlessReset (noNewStall_lookupStart s)⟩
  | lookupCompletion => exact ⟨_, rfl, noNewStall_unlessReset (noNewStall_lookupCompletion s)⟩
  | frameStart p => exact ⟨_, rfl, noNewStall_unlessReset (noNewStall_frameStart s p)⟩
  | frameEnd p sdi => exact ⟨_, rfl, noNewStall_unlessReset (noNewStall_frameEnd s p sdi)⟩
  | sckPeriod p sdi => exact ⟨_, rfl, noNewStall_unlessReset (noNewStall_sckPeriod s p sdi)⟩

theorem noNewStall_step {s t : State} (h : step s = .next t) : NoNewStall s t := by
  unfold step at h
  split at h
  · next c rest _ =>
    have htaken : NoNewStall s { s with pending := rest } := .untouched
    obtain ⟨u, hu, hkept⟩ := noNewStall_exec { s with pending := rest } c
    exact Host.Outcome.next.inj (hu.symm.trans h) ▸ htaken.trans hkept
  · exact Host.Outcome.next.inj h ▸ noNewStall_unlessReset (noNewStall_timebaseTick s)

/-- Settles O56: a lane that waits for what is there after a step did so before it. -/
theorem noLaneWaitsForWhatIsThere : Obligations.NoLaneWaitsForWhatIsThere := by
  intro s t h
  have hstep := noNewStall_step h
  rw [State.signalsUnawaited_iff, State.signalsUnawaited_iff, State.queueHeldOnlyFull_iff, State.queueHeldOnlyFull_iff]
  exact ⟨fun hs l hl => hs l (hstep.signal l hl), fun hs l hl => hs l (hstep.queue l hl)⟩

end Sys2Proof.Machine
end

section
/-! SUPPORT. What a set of signals leaves: the lowest signal of a mask is set first (R121), and the wakes a set causes each touch
their own lane and the requests and interrupts that its next record brings (R125, R16, R36). -/

namespace Sys2Proof.Machine

/-! ### Signals in ascending number -/

/-- In an ascending list the least member that passes a test comes before the others that pass it. -/
theorem filter_eq_cons_of_least {α : Type} [LinearOrder α] {p : α → Bool} {a : α} (hpa : p a = true)
    (hlow : ∀ b, b < a → p b = false) : ∀ {as : List α}, as.Pairwise (· < ·) → a ∈ as →
      as.filter p = a :: as.filter fun b => p b && decide (b ≠ a)
  | b :: as, has, hmem => by
    obtain ⟨hb, has⟩ := List.pairwise_cons.mp has
    rcases List.mem_cons.mp hmem with rfl | hmem
    · have hrest : as.filter p = as.filter fun c => p c && decide (c ≠ a) :=
        List.filter_congr fun c hc => by simp [(hb c hc).ne']
      simpa [hpa] using hrest
    · have hpb : p b = false := hlow b (hb a hmem)
      simpa [hpb] using filter_eq_cons_of_least hpa hlow has hmem

/-- The signals of a mask are set one by one in ascending number (R121). -/
theorem setSignals_eq_foldl (s : State) (mask : Half) :
    setSignals s mask = (allSignals.filter fun n => mask.getLsbD n.val).foldl setSignal s :=
  List.foldl_filter.symm

theorem setSignals_zero (s : State) : setSignals s 0 = s := by
  simp [setSignals_eq_foldl]

/-- The lowest signal of a mask is set before the rest of the mask (R121). -/
theorem setSignals_lowest_first {mask : Half} {n : SignalId} (hn : mask.getLsbD n.val = true)
    (hlow : ∀ m : SignalId, m < n → mask.getLsbD m.val = false) (s : State) :
    setSignals s mask = setSignals (setSignal s n) (mask &&& ~~~ (BitVec.twoPow 16 n.val)) := by
  have hrest : ∀ m : SignalId, (mask &&& ~~~ (BitVec.twoPow 16 n.val)).getLsbD m.val =
      (mask.getLsbD m.val && decide (m ≠ n)) := fun m => by
    have hm : m.val < 16 := m.isLt
    by_cases e : m = n
    · simp [e]
    · have e' : m.val ≠ n.val := Fin.val_ne_of_ne e
      simp [e, e', hm]
  rw [setSignals_eq_foldl, setSignals_eq_foldl,
    filter_eq_cons_of_least (p := fun m : SignalId => mask.getLsbD m.val) hn hlow (show allSignals.Pairwise (· < ·) by decide) (mem_allSignals n), List.foldl_cons]
  simp only [hrest]

/-! ### The wakes of a list of lanes -/

section

variable {s : State} {l : LaneId} {ls : List LaneId}

/-- A wake leaves the lanes that are woken after it. -/
theorem completeWait_others (h : (l :: ls).Nodup) : ∀ k ∈ ls, (completeWait s l).lane k = s.lane k := fun k hk =>
  (onlyLane_completeWait s l).others k fun e => (List.nodup_cons.mp h).1 (e ▸ hk)

/-- Each lane woken has completed its WAIT, and no other lane has changed (R125). -/
theorem foldl_completeWait_lane (k : LaneId) : ∀ {ls : List LaneId} {s : State}, ls.Nodup → (∀ l ∈ ls, (s.lane l).tidy) →
    (ls.foldl completeWait s).lane k = if k ∈ ls then (s.lane k).afterWait else s.lane k
  | [], _, _, _ => rfl
  | l :: ls, s, hnodup, htidy => by
    have hothers := completeWait_others (s := s) hnodup
    have htail : ∀ j ∈ ls, ((completeWait s l).lane j).tidy := fun j hj =>
      hothers j hj ▸ htidy j (List.mem_cons_of_mem l hj)
    rw [List.foldl_cons, foldl_completeWait_lane k hnodup.of_cons htail]
    by_cases e : k = l
    · subst e
      rw [if_neg (List.nodup_cons.mp hnodup).1, if_pos List.mem_cons_self,
        (leaves_completeWait (htidy k List.mem_cons_self)).lane]
    · rw [(onlyLane_completeWait s l).others k e]
      simp [e]

/-- The requests of the wakes are appended in the order of the lanes (R16, R105). -/
theorem foldl_completeWait_queue : ∀ {ls : List LaneId} {s : State}, ls.Nodup →
    (∀ l ∈ ls, (s.lane l).progress.pointer ≠ 0x7FFC) →
    (ls.foldl completeWait s).map.queue = s.map.queue ++ ls.flatMap fun l =>
      (s.lane l).walk.appended l .walk ((s.lane l).progress.pointer + 4).page
  | [], _, _, _ => by simp
  | l :: ls, s, hnodup, hnext => by
    have hothers := completeWait_others (s := s) hnodup
    have htail : ∀ j ∈ ls, ((completeWait s l).lane j).progress.pointer ≠ 0x7FFC := fun j hj =>
      hothers j hj ▸ hnext j (List.mem_cons_of_mem l hj)
    have hrequests : (ls.flatMap fun j =>
          ((completeWait s l).lane j).walk.appended j .walk (((completeWait s l).lane j).progress.pointer + 4).page) =
        ls.flatMap fun j => (s.lane j).walk.appended j .walk ((s.lane j).progress.pointer + 4).page :=
      List.flatMap_congr fun j hj => by rw [hothers j hj]
    rw [List.foldl_cons, foldl_completeWait_queue hnodup.of_cons htail, hrequests,
      completeWait_queue (hnext l List.mem_cons_self), List.append_assoc, List.flatMap_cons]

/-- The interrupt bits of the wakes of a list of lanes: LANE_FAULT if one stands at 0x7FFC, where it faults RANGE, LANE_HALT if
another steps (R16, R36). -/
def State.wakeInts (s : State) (ls : List LaneId) : BitVec 8 :=
  (if ∃ l, l ∈ ls ∧ (s.lane l).progress.pointer = 0x7FFC then 0x02 else 0) |||
    (if ∃ l, l ∈ ls ∧ (s.lane l).progress.pointer ≠ 0x7FFC ∧ (s.lane l).config.step = true then 0x04 else 0)

theorem ite_or_bits (bits : BitVec 8) (p q : Prop) [Decidable p] [Decidable q] :
    (if p ∨ q then bits else 0) = (if p then bits else 0) ||| (if q then bits else 0) := by
  by_cases hp : p
  · by_cases hq : q <;> simp [hp, hq]
  · simp [hp]

theorem completionInts_eq_or (pointer : LAddr) (step : Bool) : completionInts pointer step =
    (if pointer = 0x7FFC then 0x02 else 0) ||| (if pointer ≠ 0x7FFC ∧ step = true then 0x04 else 0) := by
  by_cases e : pointer = 0x7FFC
  · rw [completionInts_last e, if_pos e, if_neg fun h => h.1 e]
    rfl
  · rw [completionInts_next e, if_neg e]
    simp only [ne_eq, e, not_false_eq_true, true_and]
    exact BitVec.zero_or.symm

theorem State.wakeInts_cons (s : State) (l : LaneId) (ls : List LaneId) : s.wakeInts (l :: ls) =
    completionInts (s.lane l).progress.pointer (s.lane l).config.step ||| s.wakeInts ls := by
  simp only [State.wakeInts, List.mem_cons, or_and_right, exists_or, exists_eq_left, completionInts_eq_or, ite_or_bits]
  ac_rfl

theorem State.wakeInts_congr {s t : State} {ls : List LaneId} (h : ∀ l ∈ ls, t.lane l = s.lane l) :
    t.wakeInts ls = s.wakeInts ls := by
  have hlast : (∃ l, l ∈ ls ∧ (t.lane l).progress.pointer = 0x7FFC) ↔
      ∃ l, l ∈ ls ∧ (s.lane l).progress.pointer = 0x7FFC :=
    exists_congr fun l => and_congr_right fun hl => by rw [h l hl]
  have hstep : (∃ l, l ∈ ls ∧ (t.lane l).progress.pointer ≠ 0x7FFC ∧ (t.lane l).config.step = true) ↔
      ∃ l, l ∈ ls ∧ (s.lane l).progress.pointer ≠ 0x7FFC ∧ (s.lane l).config.step = true :=
    exists_congr fun l => and_congr_right fun hl => by rw [h l hl]
  simp only [State.wakeInts, hlast, hstep]

theorem foldl_completeWait_ints : ∀ {ls : List LaneId} {s : State}, ls.Nodup →
    (ls.foldl completeWait s).ints = s.ints.setting (s.wakeInts ls)
  | [], s, _ => by simp [State.wakeInts]
  | l :: ls, s, hnodup => by
    rw [List.foldl_cons, foldl_completeWait_ints hnodup.of_cons, State.wakeInts_congr (completeWait_others hnodup),
      completeWait_ints, Interrupts.setting_setting, State.wakeInts_cons]

end

end Sys2Proof.Machine
end

section
/-! CERTIFICATE. O22: SIGNAL_SET. -/

namespace Sys2Proof.Machine

/-- What a set of a clear signal leaves (R121, R124, R125). -/
theorem setSignal_wakes {s : State} {n : SignalId} (hsound : s.lookupsSound) (hclear : s.signals.getLsbD n.val = false) :
    (∀ l, (setSignal s n).lane l = if l ∈ wokenBy s n then (s.lane l).afterWait else s.lane l) ∧
    (setSignal s n).signals = s.signalsAfterSet n ∧
    (setSignal s n).map.entries = s.map.entries ∧
    ((∀ l, l ∈ wokenBy s n → (s.lane l).progress.pointer ≠ 0x7FFC) →
      (setSignal s n).map.queue = s.map.queue ++ (wokenBy s n).flatMap fun l =>
        (s.lane l).walk.appended l .walk ((s.lane l).progress.pointer + 4).page) ∧
    (setSignal s n).ints = s.ints.setting (s.wakeInts (wokenBy s n)) := by
  rw [setSignal_of_clear hclear]
  have hnodup := wokenBy_nodup s n
  exact ⟨fun l => foldl_completeWait_lane (s := s.withSignals _) l hnodup fun k _ => hsound.tidy k,
    foldl_completeWait_signals _ _,
    (onlyLanes_foldl (p := fun _ => True) onlyLane_completeWait (wokenBy s n) _ fun _ _ => trivial).entries,
    foldl_completeWait_queue (s := s.withSignals (s.signalsAfterSet n)) hnodup,
    foldl_completeWait_ints (s := s.withSignals _) hnodup⟩

theorem State.signalsAfterSet_eq (s : State) (n : SignalId) : s.signalsAfterSet n =
    if ∃ l, isWaiter s n l = true ∧ consumes s l = true then s.signals else s.signals ||| BitVec.twoPow 16 n.val := by
  unfold State.signalsAfterSet
  simp only [any_wokenBy_consumes]

/-- Settles O22: the signals of the mask are set in ascending number, and each that was clear wakes its waiters. -/
theorem signalSetWakesItsWaiters : Obligations.SignalSetWakesItsWaiters := by
  intro s v n hpin hsound
  have honly := onlyLanes_setSignal s n
  have hexec : exec (.signalSet (BitVec.twoPow 16 n.val)) s = .next (setSignal s n) := by
    rw [exec_signalSet hpin, setSignals_twoPow]
  refine ⟨?zero, ?lowestFirst, ?alreadySet, fun _ => mem_wokenBy, ?wakes⟩
  case zero =>
    rintro rfl
    rw [exec_signalSet hpin, setSignals_zero]
  case lowestFirst =>
    intro hn hlow
    refine ⟨setSignal s n, hexec, ?_⟩
    change exec (.signalSet v) s = exec _ (setSignal s n)
    rw [exec_signalSet hpin, exec_signalSet (honly.resetPin.trans hpin), setSignals_lowest_first hn hlow]
  case alreadySet =>
    intro hset
    rw [hexec, setSignal_of_set hset]
  case wakes =>
    intro hclear
    obtain ⟨hlanes, hsignals, hentries, hqueue, hints⟩ := setSignal_wakes hsound hclear
    exact ⟨_, hexec, hlanes, hsignals.trans (s.signalsAfterSet_eq n), hentries, hqueue, hints, honly.window, honly.frame⟩

end Sys2Proof.Machine
end

section
/-! CERTIFICATE. O23: SIGNAL_CLEAR, QUEUE_THRESHOLD, INT_STATUS, INT_ENABLE and IRQ. -/

namespace Sys2Proof.Machine

/-- A write of ones to clear takes away the bits written (R122, R141). -/
theorem getLsbD_cleared {w : Nat} (bits v : BitVec w) (i : Fin w) :
    (bits &&& ~~~v).getLsbD i.val = (bits.getLsbD i.val && !v.getLsbD i.val) := by
  simp [i.isLt]

/-- Two words have a bit in common exactly if their conjunction is not zero (R142). -/
theorem and_bne_zero_iff {w : Nat} (a b : BitVec w) :
    ((a &&& b) != 0) = true ↔ ∃ i : Fin w, a.getLsbD i.val = true ∧ b.getLsbD i.val = true := by
  rw [bne_iff_ne, ne_eq, BitVec.eq_of_getLsbD_eq_iff]
  constructor
  · intro h
    push Not at h
    obtain ⟨i, hi, hbit⟩ := h
    exact ⟨⟨i, hi⟩, by simpa using hbit⟩
  · rintro ⟨i, ha, hb⟩ h
    have hbit := h i.val i.isLt
    rw [BitVec.getLsbD_and, ha, hb] at hbit
    simp at hbit

section

variable {s : State} (h : s.resetPin = false) (v : Half)

include h

/-- SIGNAL_CLEAR outside RESET (R122). -/
theorem exec_signalClear : exec (.signalClear v) s = .next (s.withSignals (s.signals &&& ~~~v)) :=
  congrArg Host.Outcome.next (unlessReset_run h fun s => clearSignals s v)

theorem exec_queueThresholdWrite :
    exec (.queueThresholdWrite v) s = .next { s with queue := { s.queue with thresholdField := v.extractLsb' 0 5 } } :=
  congrArg Host.Outcome.next (unlessReset_run h _)

theorem exec_intStatusWrite : exec (.intStatusWrite v) s = .next (writeIntStatus s v) :=
  congrArg Host.Outcome.next (unlessReset_run h fun s => writeIntStatus s v)

theorem exec_intEnableWrite : exec (.intEnableWrite v) s = .next (writeIntEnable s v) :=
  congrArg Host.Outcome.next (unlessReset_run h fun s => writeIntEnable s v)

/-- IRQ outside RESET is up exactly if a status bit and its enable are set (R142). -/
theorem State.irq_iff :
    s.irq = true ↔ ∃ i : Fin 8, s.ints.status.getLsbD i.val = true ∧ s.ints.enable.getLsbD i.val = true := by
  rw [State.irq, h, Bool.not_false, Bool.true_and, and_bne_zero_iff]

end

/-- Settles O23: each write takes its bits by the write's equation, and IRQ is the common bits of status and enable. -/
theorem signalClearThresholdAndInterruptWrites : Obligations.SignalClearThresholdAndInterruptWrites := by
  intro s v hpin
  refine ⟨⟨_, exec_signalClear hpin v, fun n => getLsbD_cleared s.signals v n, rfl⟩, exec_queueThresholdWrite hpin v,
    ⟨_, exec_intStatusWrite hpin v, fun i => ?status, rfl⟩, ?enable, State.irq_iff hpin⟩
  case status =>
    have hbit : (v.setWidth 8).getLsbD i.val = v.getLsbD i.val := by simp [i.isLt]
    exact hbit ▸ getLsbD_cleared s.ints.status (v.setWidth 8) i
  case enable =>
    rw [exec_intEnableWrite hpin, writeIntEnable, BitVec.setWidth_eq_extractLsb' (by decide)]

end Sys2Proof.Machine
end

section
/-! SUPPORT. The completion queue: what one push makes of it, and that the results of a beat make at most one (R72, R131 to R134). -/

namespace Sys2Proof.Machine

/-! ### A queue in sequence -/

/-- At most one push: the queue is as it was, or it had room and ends with an entry that took the next sequence number (R132). -/
def CompletionQueue.TakesOne (q r : CompletionQueue) : Prop :=
  r = q ∨ q.entries.length < 32 ∧ ∃ e : Entry, e.sequence = q.nextSequence ∧
    r = { q with entries := q.entries ++ [e], nextSequence := q.nextSequence + 1 }

theorem CompletionQueue.TakesOne.kept {q r : CompletionQueue} (h : r = q) : q.TakesOne r := .inl h

/-- A push takes the sequence number that the counter shows, and the counter goes on (R132, R134). -/
theorem CompletionQueue.TakesOne.inOrder {q r : CompletionQueue} (h : q.TakesOne r) (hq : q.inOrder) : r.inOrder := by
  obtain rfl | ⟨hroom, e, hnumber, rfl⟩ := h
  · exact hq
  · obtain ⟨-, hseq⟩ := hq
    refine ⟨by simpa using hroom, fun k hk => ?_⟩
    obtain hk | rfl : k < q.entries.length ∨ k = q.entries.length := by simp at hk; omega
    · have hdistance : q.entries.length + 1 - k = q.entries.length - k + 1 := by omega
      simp [List.getElem_append_left hk, hdistance, BitVec.ofNat_add, ← BitVec.add_assoc, hseq k hk]
    · simp [hnumber]

/-- The removal of the oldest entry leaves the others their distance from the sequence counter (R134, R136). -/
theorem CompletionQueue.inOrder_tail {q : CompletionQueue} {e : Entry} {rest : List Entry} (h : q.entries = e :: rest)
    (hq : q.inOrder) : ({ q with entries := rest } : CompletionQueue).inOrder := by
  obtain ⟨entries, next, threshold⟩ := q
  obtain rfl : entries = e :: rest := h
  obtain ⟨hlength, hseq⟩ := hq
  refine ⟨Nat.le_of_succ_le hlength, fun k hk => ?_⟩
  simpa using hseq (k + 1) (Nat.succ_lt_succ hk)

theorem takesOne_pushed {s : State} (h : s.queue.entries.length < 32) (l : LaneId) (kind : EntryKind) (tag : Half) :
    s.queue.TakesOne (s.pushed l kind tag).queue := .inr ⟨h, _, rfl, rfl⟩

theorem takesOne_push {s t : State} {l : LaneId} {kind : EntryKind} {tag : Half} (h : push s l kind tag = some t) :
    s.queue.TakesOne t.queue := by
  by_cases hroom : s.queue.entries.length < 32
  · rw [push_eq hroom] at h
    exact Option.some.inj h ▸ takesOne_pushed hroom l kind tag
  · rw [push_full (Nat.le_of_not_lt hroom)] at h
    contradiction

/-! ### Results that push nothing

`f_completions` says that `f` leaves the completion queue as it is; `f_queue` above speaks of the lookup request queue. -/

section
variable (s : State) (l : LaneId)

@[simp] theorem retarget_completions (r : Role) (page : BitVec 7) : (retarget s l r page).queue = s.queue :=
  (onlyLane_retarget s l r page).queue

@[simp] theorem release_completions (r : Role) : (release s l r).queue = s.queue := (onlyLane_release s l r).queue

@[simp] theorem dropCopy_completions : (dropCopy s l).queue = s.queue := (onlyLane_dropCopy s l).queue

@[simp] theorem completeAdvance_completions : (completeAdvance s l).1.queue = s.queue :=
  (onlyLane_completeAdvance s l).queue

@[simp] theorem completeWait_completions : (completeWait s l).queue = s.queue := (onlyLane_completeWait s l).queue

@[simp] theorem setSignal_completions (n : SignalId) : (setSignal s n).queue = s.queue := (onlyLanes_setSignal s n).queue

theorem foldl_completions {α : Type} {f : State → α → State} (hf : ∀ t a, (f t a).queue = t.queue) (as : List α) :
    (as.foldl f s).queue = s.queue :=
  List.foldlRecOn (motive := fun t : State => t.queue = s.queue) as f rfl fun t ht a _ => (hf t a).trans ht

@[simp] theorem setSignals_completions (mask : Half) : (setSignals s mask).queue = s.queue :=
  foldl_completions s (fun t n => by split <;> simp) allSignals

theorem satisfyWait_completions {mask : Half} {consume : Bool} {t : State} (h : satisfyWait s mask consume = some t) :
    t.queue = s.queue := by
  unfold satisfyWait at h
  split at h
  · obtain rfl := Option.some.inj h
    split <;> rfl
  · contradiction

@[simp] theorem setUpTransfer_completions (r : RecordCopy) (source destination : LAddr) :
    (setUpTransfer s l r source destination).1.queue = s.queue := by
  simp [setUpTransfer]

@[simp] theorem beginResolution_completions (target : ResolveTarget) (cell : LAddr) :
    (beginResolution s l target cell).1.queue = s.queue := by
  simp [beginResolution]

@[simp] theorem endResolution_completions : (endResolution s l).queue = s.queue := by
  simp [endResolution]

@[simp] theorem takePendingPost_completions (kind : EntryKind) (tag : Half) :
    (takePendingPost s l kind tag).1.queue = s.queue := rfl

variable (r : RecordCopy)

theorem actLink_completions (target : LAddr) (hops : Nat) {finish : State → State} (h : (finish s).queue = s.queue) :
    (actLink s l r target hops finish).1.queue = s.queue := by
  unfold actLink
  dsimp only
  split
  · rfl
  · simp [takeLink, h]
  · split <;> simp [h]

theorem resolveResult_completions (cell : Word) : (resolveResult s l r cell).1.queue = s.queue := by
  unfold resolveResult
  dsimp only
  split
  · rfl
  · split
    · split <;> simp
    · split
      · split <;> simp
      · simp
      · split
        · exact actLink_completions s l r _ _ (by simp)
        · rfl

@[simp] theorem completeMove_completions : (completeMove s l r).1.queue = s.queue := by
  unfold completeMove
  dsimp only
  split <;> simp

theorem crossPages_completions (src dst : BeatCursor) : (crossPages s l r src dst).queue = s.queue := by
  unfold crossPages
  dsimp only
  split <;> split <;> simp

/-! ### Results that may push -/

theorem takesOne_dispatchPost : s.queue.TakesOne (dispatchPost s l r).1.queue := by
  unfold dispatchPost
  split
  · next h => simpa using takesOne_push h
  · exact .kept rfl

theorem takesOne_dispatchStop : s.queue.TakesOne (dispatchStop s l r).1.queue := by
  unfold dispatchStop
  split
  · split
    · next h => exact takesOne_push h
    · exact .kept rfl
  · exact .kept rfl

/-- Of the records only a POST and a STOP post an entry at their dispatch (R75 to R79). -/
theorem takesOne_dispatchRecord : s.queue.TakesOne (dispatchRecord s l r).1.queue := by
  unfold dispatchRecord
  split
  · refine .kept ?_
    unfold dispatchMove
    dsimp only
    split
    · simp
    · split <;> simp
  · refine .kept ?_
    unfold dispatchLink
    split
    · simp
    · exact actLink_completions s l r _ _ rfl
  · exact takesOne_dispatchPost s l r
  · refine .kept ?_
    unfold dispatchWait
    split
    · next h => rw [completeAdvance_completions, satisfyWait_completions s h]
    · rfl
  · exact .kept (by simp [dispatchRaise])
  · exact takesOne_dispatchStop s l r
  · exact .kept rfl

theorem takesOne_loadResult : s.queue.TakesOne (loadResult s l r).1.queue := by
  unfold loadResult
  dsimp only
  split
  · exact .kept rfl
  · split
    · exact .kept rfl
    · exact takesOne_dispatchRecord s l r

theorem takesOne_finishMove : s.queue.TakesOne (finishMove s l r).1.queue := by
  unfold finishMove
  split
  · split
    · next h => simpa using takesOne_push h
    · exact .kept rfl
  · exact .kept (by simp)

/-- Of the stops of a TRANSFER beat only the finish step may post an entry (R84 to R88). -/
theorem takesOne_transferResult (src dst : BeatCursor) (stop : Stop) :
    s.queue.TakesOne (transferResult s l r src dst stop).1.queue := by
  unfold transferResult
  dsimp only
  cases stop with
  | finish => exact takesOne_finishMove s l r
  | crossing => exact .kept (crossPages_completions s l r src dst)
  | portEmpty q =>
    dsimp only
    split
    · exact .kept rfl
    · split <;> exact .kept rfl
  | portFull q =>
    dsimp only
    split
    · exact .kept rfl
    · split <;> exact .kept rfl
  | burst | portOff | range => exact .kept rfl

theorem takesOne_finishResult (held : PendingPost) : s.queue.TakesOne (finishResult s l r held).1.queue := by
  unfold finishResult
  split
  · exact .kept rfl
  · next h =>
    have hpushed := takesOne_push h
    dsimp only
    split
    · simpa using hpushed
    · exact hpushed
    · simpa using hpushed

/-- The results of a beat post at most one entry (R72). -/
theorem takesOne_beatResult (work : BeatWork) : s.queue.TakesOne (beatResult s l work).1.queue := by
  unfold beatResult
  split
  · exact takesOne_loadResult s l _
  · exact takesOne_dispatchRecord s l _
  · exact .kept (resolveResult_completions s l _ _)
  · exact takesOne_transferResult s l _ _ _ _
  · split
    · exact takesOne_finishResult s l _ _
    · exact .kept rfl
  · exact .kept rfl

end

end Sys2Proof.Machine
end

section
/-! CERTIFICATE. Every step keeps the completion queue at 0 to 32 entries in sequence (R131, R132, R134, R136); O54. -/

namespace Sys2Proof.Machine

/-! ### The beat end and the slot tick -/

theorem inOrder_beatEnd {s : State} (hs : s.queue.inOrder) : (beatEnd s).queue.inOrder := by
  cases hb : s.beat with
  | none => simpa [beatEnd, hb] using hs
  | some b =>
    cases hover : b.work.over with
    | false => simpa [beatEnd, hb, hover] using hs
    | true =>
      have hresults : (s.results b).1.queue.inOrder :=
        (takesOne_beatResult (s.taken b) b.lane b.work).inOrder (s.taken_queue b ▸ hs)
      rw [beatEnd_over hb hover, (onlyLane_takeDeferred _ b.lane _ _ _).queue]
      exact hresults

/-- A timeout posts at most one entry (R127). -/
theorem takesOne_countTimeout (s : State) (l : LaneId) : s.queue.TakesOne (countTimeout s l).queue := by
  rw [countTimeout_queue]
  split
  · next h =>
    simp only [Bool.and_eq_true, decide_eq_true_eq] at h
    exact takesOne_pushed h.2 l .timeout _
  · exact .kept rfl

theorem inOrder_slotTick {s : State} (hs : s.queue.inOrder) : (slotTick s).queue.inOrder := by
  cases hrun : s.wheel.running with
  | false => rwa [slotTick_stopped hrun]
  | true =>
    have hadvanced : s.tickAdvanced.queue.inOrder := by rwa [tickAdvanced_queue]
    rw [slotTick_running hrun, countTimeouts]
    exact List.foldlRecOn (motive := fun t : State => t.queue.inOrder) allLanes countTimeout hadvanced
      fun t ht l _ => (takesOne_countTimeout t l).inOrder ht

theorem inOrder_timebaseTick {s : State} (hs : s.queue.inOrder) : (timebaseTick s).queue.inOrder := by
  unfold timebaseTick
  split
  · split
    · exact inOrder_slotTick hs
    · exact hs
  · exact hs

theorem inOrder_waitTimeout {s : State} (hs : s.queue.inOrder) (l : LaneId) : (waitTimeout s l).queue.inOrder := by
  rcases waitTimeout_cases s l with e | e <;> rw [e]
  · exact inOrder_slotTick hs
  · exact hs

/-! ### Operations that leave the queue -/

section
variable (s : State)

@[simp] theorem removeReason_completions (l : LaneId) (remove : Reasons → Reasons) :
    (removeReason s l remove).queue = s.queue := (onlyLane_removeReason s l remove).queue

@[simp] theorem releaseQueue_completions : (releaseQueue s).queue = s.queue :=
  foldl_completions s (fun t l => by split <;> simp) allLanes

@[simp] theorem releaseLanes_completions (p : PortId) (dir : Direction) : (releaseLanes s p dir).queue = s.queue :=
  foldl_completions s (fun t l => by split <;> simp) allLanes

@[simp] theorem faultWaiters_completions (p : PortId) (dir : Direction) (role : Role) :
    (faultWaiters s p dir role).queue = s.queue :=
  foldl_completions s (fun t l => by split <;> simp [(onlyLane_asyncFault t l .portOff role).queue]) allLanes

theorem lookupStart_completions : (lookupStart s).queue = s.queue := by
  unfold lookupStart
  split <;> rfl

theorem lookupCompletion_completions : (lookupCompletion s).queue = s.queue := by
  cases hk : s.map.lookup with
  | none => simp [lookupCompletion, hk]
  | some k => exact (onlyLane_lookupCompletion s k hk).queue

theorem shootdown_completions (page : BitVec 7) : (shootdown s page).queue = s.queue := by
  have hcursor (t : State) (l : LaneId) (r : Role) : (shootCursor page t l r).queue = t.queue :=
    (onlyLane_shootCursor page t l r).queue
  unfold shootdown
  rw [foldl_completions _ fun t l => foldl_completions t (fun u r => hcursor u l r) allRoles, staleOnShootdown_eq]
  rfl

/-! Frames and port configuration. -/

theorem frameStart_completions (p : PortId) : (frameStart s p).queue = s.queue := by
  have hbroken (t : State) : (frameError t p).queue = t.queue := by
    unfold frameError
    split <;> rfl
  have htransmit (t : State) : (frameStartTransmit t p).queue = t.queue := by
    unfold frameStartTransmit
    dsimp only
    split
    · rfl
    · split
      · split <;> simp
      · rfl
  unfold frameStart
  dsimp only
  rw [htransmit, State.updPort_queue]
  split
  · exact hbroken s
  · rfl

theorem offerReceived_completions (p : PortId) (w : Word) : (offerReceived s p w).queue = s.queue := by
  unfold offerReceived
  dsimp only
  split
  · rfl
  · split
    · rfl
    · split <;> simp

theorem frameEnd_completions (p : PortId) (sdi : Bool) : (frameEnd s p sdi).queue = s.queue := by
  unfold frameEnd
  dsimp only
  split
  · simp [offerReceived_completions]
  · rfl

theorem sckPeriod_completions (p : PortId) (sdi : Bool) : (sckPeriod s p sdi).queue = s.queue := by
  unfold sckPeriod
  dsimp only
  split
  · rfl
  · split
    · rfl
    · exact frameEnd_completions s p sdi

theorem disableRx_completions (p : PortId) : (disableRx s p).queue = s.queue := by
  simp [disableRx]

theorem disableTx_completions (p : PortId) : (disableTx s p).queue = s.queue := by
  have hdiscard (t : State) : (discardHeld t p).queue = t.queue := by
    unfold discardHeld
    split
    · split
      · split <;> rfl
      · rfl
    · rfl
  simp [disableTx, hdiscard]

theorem writePortConfig_completions (p : PortId) (v : Half) : (writePortConfig s p v).queue = s.queue := by
  unfold writePortConfig
  dsimp only
  split <;> split <;> simp [disableRx_completions, disableTx_completions]

/-! Lane commands and writes of lane fields. -/

theorem resumeLane_completions (l : LaneId) : (resumeLane s l).1.queue = s.queue := by
  unfold resumeLane
  split
  · unfold resumeHalted
    dsimp only
    split
    · exact (onlyLane_settle _ l _).queue
    · split
      · next h => simp [satisfyWait_completions _ h]
      · rfl
    · exact (onlyLane_settle _ l _).queue
  · rfl

theorem laneCommandOf_completions (code : BitVec 3) (l : LaneId) : (laneCommandOf code s l).1.queue = s.queue := by
  rcases laneCommandOf_cases code with h | h | h | h | h | h | h <;> rw [h]
  · exact (onlyLane_enableLane s l).queue
  · exact (onlyLane_disableLane s l).queue
  · exact (onlyLane_startLane s l).queue
  · exact (onlyLane_haltLane s l).queue
  · exact resumeLane_completions s l
  · exact (onlyLane_abortLane s l).queue

theorem laneCommand_completions (lane : BitVec 4) (code : BitVec 3) :
    (laneCommand s lane (laneCommandOf code)).queue = s.queue := by
  unfold laneCommand
  split
  · exact laneCommandOf_completions s code _
  · rfl

theorem writeRecordPointer_completions (v : Half) : (writeRecordPointer s v).queue = s.queue := by
  unfold writeRecordPointer
  dsimp only
  split
  · split
    · exact (onlyLane_redirectLane s _ _).queue
    · rfl
  · rfl

/-! The window. -/

theorem commitItem_completions {t : State} {item : Item32} {w : Word} (h : commitItem s item w = some t) :
    t.queue = s.queue := by
  cases item with
  | mapEntry page =>
    simp only [commitItem, commitMapEntry] at h
    split at h
    · rw [← Option.some.inj h, shootdown_completions]
    · contradiction
  | idleWord | aperture => exact Option.some.inj h ▸ rfl
  | slotCount | beats => contradiction

theorem splitHighWrite_completions (item : Item32) (v : Half) : (splitHighWrite s item v).queue = s.queue := by
  unfold splitHighWrite
  split
  · rfl
  · split
    · rfl
    · split
      · split
        · next h =>
          have hkept := commitItem_completions s h
          exact hkept
        · rfl
      · rfl

theorem splitLowWrite_completions (item : Item32) (v : Half) : (splitLowWrite s item v).queue = s.queue := by
  unfold splitLowWrite
  split
  · rfl
  · split <;> rfl

theorem readItem_completions (i : Item) : (readItem s i).queue = s.queue := by
  unfold readItem
  split
  · unfold splitLowRead
    split <;> rfl
  · unfold splitHighRead
    split <;> rfl
  · rfl
  · rfl

theorem hostReading_completions (i : Item) : (hostReading s fun s => readItem s i).queue = s.queue := by
  unfold hostReading
  split
  · rfl
  · exact readItem_completions s i

theorem writeScheduleEntry_completions (t : Table) (e : Fin 32) (v : Half) :
    (writeScheduleEntry s t e v).queue = s.queue := by
  unfold writeScheduleEntry
  dsimp only
  split
  · rfl
  · split <;> rfl

end

/-! ### Pops, resets and host writes -/

theorem inOrder_popQueue {s : State} (hs : s.queue.inOrder) : (popQueue s).queue.inOrder := by
  unfold popQueue
  split
  · exact hs
  · next e rest h =>
    rw [releaseQueue_completions]
    exact CompletionQueue.inOrder_tail h hs

/-- Both resets leave an empty queue (R139). -/
theorem CompletionQueue.inOrder_reset : CompletionQueue.reset.inOrder := ⟨Nat.zero_le 32, nofun⟩

theorem inOrder_globalCommandOf {s : State} (hs : s.queue.inOrder) (code : BitVec 4) :
    (globalCommandOf code s).1.queue.inOrder := by
  rcases globalCommandOf_cases code with h | h | h | h | h | h <;> rw [h]
  · unfold startWheel
    split
    · exact hs
    · split <;> exact hs
  · unfold stopWheel
    split <;> exact hs
  · unfold rewindWheel
    split <;> exact hs
  · exact CompletionQueue.inOrder_reset
  · unfold eraseMemory
    split
    · exact hs
    · split <;> exact hs
  · exact hs

/-- A host write of any item: a pop takes the oldest entry, a soft reset all of them, and no other write changes the entries or
the sequence counter (R136, R139, R174). -/
theorem inOrder_writeItem {s : State} (hs : s.queue.inOrder) (i : Item) (offset : WindowOffset) (v : Half) :
    (writeItem s i offset v).queue.inOrder := by
  have hkept {t : State} (h : t.queue = s.queue) : t.queue.inOrder := h.symm ▸ hs
  cases i with
  | globalCommand => exact inOrder_globalCommandOf hs _
  | queuePop => exact inOrder_popQueue hs
  | signalSet => exact hkept (setSignals_completions s v)
  | laneCommand => exact hkept (laneCommand_completions s _ _)
  | recordPointer => exact hkept (writeRecordPointer_completions s v)
  | portConfig p => exact hkept (writePortConfig_completions s p v)
  | scheduleEntry t e => exact hkept (writeScheduleEntry_completions s t e v)
  | split item half =>
    cases half with
    | low => exact hkept (splitLowWrite_completions s item v)
    | high => exact hkept (splitHighWrite_completions s item v)
  | slotPeriod =>
    refine hkept ?_
    rw [writeItem, writeSlotPeriod]
    split <;> rfl
  | laneSelect =>
    refine hkept ?_
    rw [writeItem, writeLaneSelect]
    split <;> rfl
  | _ => exact hs

/-! ### Every command and every step -/

theorem inOrder_unlessReset {s : State} {f : State → State} (hs : s.queue.inOrder) (hf : (f s).queue.inOrder) :
    (unlessReset s f).queue.inOrder :=
  unlessReset_cases (p := fun t => t.queue.inOrder) hs fun _ => hf

theorem inOrder_hostAccess {s : State} (hs : s.queue.inOrder) (offset : WindowOffset) (a : Access) :
    (hostAccess s offset a).queue.inOrder := by
  cases a with
  | read => exact (hostReading_completions s (itemAt offset)).symm ▸ hs
  | write v => exact inOrder_unlessReset (f := fun s => writeItem s _ _ v) hs (inOrder_writeItem hs _ _ v)

theorem inOrder_exec {s : State} (hs : s.queue.inOrder) (c : Instr) : Runs c s fun t => t.queue.inOrder := by
  have hkept {f : State → State} (h : (f s).queue = s.queue) : (unlessReset s f).queue.inOrder :=
    inOrder_unlessReset hs (h.symm ▸ hs)
  have hread (i : Item) : (hostReading s fun s => readItem s i).queue.inOrder := (hostReading_completions s i).symm ▸ hs
  have hwrite (i : Item) (v : Half) : (unlessReset s fun s => writeItem s i 0 v).queue.inOrder :=
    inOrder_unlessReset hs (inOrder_writeItem hs i 0 v)
  have hlane (lane : BitVec 4) (code : BitVec 3) :
      (unlessReset s fun s => laneCommand s lane (laneCommandOf code)).queue.inOrder :=
    hkept (laneCommand_completions s lane code)
  have hglobal (code : BitVec 4) : (unlessReset s fun s => globalCommand s (globalCommandOf code)).queue.inOrder :=
    inOrder_unlessReset hs (inOrder_globalCommandOf hs code)
  cases c with
  | enable lane => exact ⟨_, rfl, hlane lane 1⟩
  | disable lane => exact ⟨_, rfl, hlane lane 2⟩
  | start lane => exact ⟨_, rfl, hlane lane 3⟩
  | halt lane => exact ⟨_, rfl, hlane lane 4⟩
  | resume lane => exact ⟨_, rfl, hlane lane 5⟩
  | abort lane => exact ⟨_, rfl, hlane lane 6⟩
  | laneCommandUnknown lane code => exact ⟨_, rfl, hlane lane code⟩
  | wheelStart => exact ⟨_, rfl, hglobal 1⟩
  | wheelStop => exact ⟨_, rfl, hglobal 2⟩
  | wheelRewind => exact ⟨_, rfl, hglobal 3⟩
  | softReset => exact ⟨_, rfl, hglobal 4⟩
  | erase => exact ⟨_, rfl, hglobal 5⟩
  | globalCommandUnknown code => exact ⟨_, rfl, hglobal code⟩
  | clearPassEnd =>
    refine ⟨_, rfl, hkept ?_⟩
    unfold clearPassEnd
    split <;> rfl
  | resetAssert => exact ⟨_, rfl, CompletionQueue.inOrder_reset⟩
  | resetRelease =>
    refine ⟨_, rfl, ?_⟩
    unfold resetRelease
    split <;> exact hs
  | recordPointerWrite v => exact ⟨_, rfl, hwrite .recordPointer v⟩
  | laneConfigWrite v => exact ⟨_, rfl, hwrite .laneConfig v⟩
  | laneSelectWrite v => exact ⟨_, rfl, hwrite .laneSelect v⟩
  | recordWordsRead => exact ⟨_, rfl, hread .recordWords⟩
  | scheduleEntryWrite table e v => exact ⟨_, rfl, hwrite (.scheduleEntry table e) v⟩
  | slotPeriodWrite v => exact ⟨_, rfl, hwrite .slotPeriod v⟩
  | tableSelectWrite v => exact ⟨_, rfl, hwrite .tableSelect v⟩
  | splitLowRead item => exact ⟨_, rfl, hread (.split item .low)⟩
  | splitHighRead item => exact ⟨_, rfl, hread (.split item .high)⟩
  | splitLowWrite item v => exact ⟨_, rfl, hwrite (.split item .low) v⟩
  | mapEntryCommit page v => exact ⟨_, rfl, hwrite (.split (.mapEntry page) .high) v⟩
  | apertureWordCommit word v => exact ⟨_, rfl, hwrite (.split (.aperture word) .high) v⟩
  | portIdleWordCommit p v => exact ⟨_, rfl, hwrite (.split (.idleWord p) .high) v⟩
  | aperturePageWrite v => exact ⟨_, rfl, hwrite .aperturePage v⟩
  | signalSet v => exact ⟨_, rfl, hwrite .signalSet v⟩
  | signalClear v => exact ⟨_, rfl, hwrite .signalClear v⟩
  | queuePop v => exact ⟨_, rfl, hwrite .queuePop v⟩
  | queueThresholdWrite v => exact ⟨_, rfl, hwrite .queueThreshold v⟩
  | intStatusWrite v => exact ⟨_, rfl, hwrite .intStatus v⟩
  | intEnableWrite v => exact ⟨_, rfl, hwrite .intEnable v⟩
  | portRxEnable p v | portTxEnable p v | portRxDisable p v | portTxDisable p v =>
    exact ⟨_, rfl, hwrite (.portConfig p) _⟩
  | portStatusWrite p v => exact ⟨_, rfl, hwrite (.portStatus p) v⟩
  | portCounterWrite p counter v => exact ⟨_, rfl, hwrite (.portCounter p counter) v⟩
  | registerWrite offset v => exact ⟨_, rfl, inOrder_hostAccess hs offset (.write v)⟩
  | unusedOffsetAccess offset a => exact ⟨_, rfl, inOrder_hostAccess hs offset a⟩
  | slotTick => exact ⟨_, rfl, inOrder_unlessReset hs (inOrder_slotTick hs)⟩
  | waitTimeout l => exact ⟨_, rfl, inOrder_unlessReset hs (inOrder_waitTimeout hs l)⟩
  | recordLoad words => exact ⟨_, rfl, hkept (by rw [recordLoad_frame])⟩
  | cellRead => exact ⟨_, rfl, hkept (by rw [cellRead_frame])⟩
  | wordStep part => exact ⟨_, rfl, hkept (by rw [wordStep_frame])⟩
  | beatEnd => exact ⟨_, rfl, inOrder_unlessReset hs (inOrder_beatEnd hs)⟩
  | lookupStart => exact ⟨_, rfl, hkept (lookupStart_completions s)⟩
  | lookupCompletion => exact ⟨_, rfl, hkept (lookupCompletion_completions s)⟩
  | frameStart p => exact ⟨_, rfl, hkept (frameStart_completions s p)⟩
  | frameEnd p sdi => exact ⟨_, rfl, hkept (frameEnd_completions s p sdi)⟩
  | sckPeriod p sdi => exact ⟨_, rfl, hkept (sckPeriod_completions s p sdi)⟩

/-- Settles O54: entries are pushed with the next number while there is room, and leave from the front or all at once. -/
theorem queueStaysInSequence : Obligations.QueueStaysInSequence := by
  intro s t hs h
  unfold step at h
  split at h
  · next c rest _ =>
    obtain ⟨u, hu, hkept⟩ := inOrder_exec (s := { s with pending := rest }) hs c
    exact Host.Outcome.next.inj (hu.symm.trans h) ▸ hkept
  · exact Host.Outcome.next.inj h ▸ inOrder_unlessReset hs (inOrder_timebaseTick hs)

end Sys2Proof.Machine
end

section
/-! CERTIFICATE. QUEUE_POP and the release of the lanes that hold QUEUE (R23, R38, R136, R137); O24. -/

namespace Sys2Proof.Machine

/-- A lane that loses QUEUE if it holds it (R137). -/
def Lane.withoutQueue (x : Lane) : Lane :=
  if holdsReason x Reasons.queue then x.losing fun h => { h with queue := false } else x

/-- The release for one lane changes that lane's context alone (R137). -/
theorem releaseQueue_step (s : State) (l : LaneId) :
    (if holdsReason (s.lane l) Reasons.queue then removeReason s l fun h => { h with queue := false } else s) =
      s.setLane l (s.lane l).withoutQueue := by
  unfold Lane.withoutQueue
  split
  · exact removeReason_eq s l _
  · exact (State.setLane_self s l).symm

/-- The release, lane by lane (R137). -/
theorem releaseQueue_eq_foldl (s : State) :
    releaseQueue s = allLanes.foldl (fun t l => t.setLane l (t.lane l).withoutQueue) s := by
  unfold releaseQueue
  simp only [releaseQueue_step]

/-- Lanes replaced one after the other, none twice, are each replaced from the context that stood before. -/
theorem foldl_setLane_lane (f : Lane → Lane) (k : LaneId) : ∀ (ls : List LaneId) (s : State), ls.Nodup →
    (ls.foldl (fun t l => t.setLane l (f (t.lane l))) s).lane k = if k ∈ ls then f (s.lane k) else s.lane k
  | [], _, _ => by simp
  | l :: ls, s, hnodup => by
    obtain ⟨hl, hls⟩ := List.nodup_cons.mp hnodup
    rw [List.foldl_cons, foldl_setLane_lane f k ls _ hls, State.lane_setLane]
    by_cases e : k = l
    · simp [e, hl]
    · simp [e]

theorem releaseQueue_lane (s : State) (l : LaneId) : (releaseQueue s).lane l = (s.lane l).withoutQueue := by
  rw [releaseQueue_eq_foldl, foldl_setLane_lane _ l allLanes s (by decide), if_pos (mem_allLanes l)]

theorem releaseQueue_frame (s : State) : releaseQueue s = { s with lanes := (releaseQueue s).lanes } := by
  rw [releaseQueue_eq_foldl]
  exact List.foldlRecOn (motive := fun t : State => t = { s with lanes := t.lanes }) allLanes _ rfl
    fun t ht l _ => congrArg (fun u : State => u.setLane l (t.lane l).withoutQueue) ht

theorem exec_queuePop {s : State} (hpin : s.resetPin = false) (v : Half) : exec (.queuePop v) s = .next (popQueue s) :=
  congrArg Host.Outcome.next (unlessReset_run hpin popQueue)

theorem popQueue_empty {s : State} (h : s.queue.entries = []) : popQueue s = s.refuse .queueEmpty 0x0AE := by
  simp only [popQueue, h]

theorem popQueue_cons {s : State} {e : Entry} {rest : List Entry} (h : s.queue.entries = e :: rest) :
    popQueue s = releaseQueue { s with queue := { s.queue with entries := rest } } := by
  simp only [popQueue, h]

/-- Settles O24: an empty queue refuses the pop; else the oldest entry goes and each lane is released by itself. -/
theorem queuePopReleasesEveryLaneThatHoldsQueue : Obligations.QueuePopReleasesEveryLaneThatHoldsQueue := by
  intro s v hpin
  refine ⟨fun hempty => ?_, fun e rest hentries => ?_⟩
  · rw [exec_queuePop hpin, popQueue_empty hempty]
  · have hframe := releaseQueue_frame { s with queue := { s.queue with entries := rest } }
    refine ⟨_, exec_queuePop hpin v, ?_⟩
    rw [popQueue_cons hentries]
    refine ⟨by rw [hframe], fun l => releaseQueue_lane _ l, ?_⟩
    rw [hframe]

end Sys2Proof.Machine
end

section
/-! SUPPORT. The operations that leave the ports and the beat in progress as they are. -/

namespace Sys2Proof.Machine

/-! ### Operations that leave the ports and the beat -/

/-- What the soundness of the ports reads of a state: the ports and the beat in progress. -/
def State.portSide (s : State) : Vector Port 4 × Option Beat := (s.ports, s.beat)

theorem State.portSide_eq_iff {s t : State} : t.portSide = s.portSide ↔ t.ports = s.ports ∧ t.beat = s.beat :=
  Prod.mk_inj

theorem OnlyLane.portSide {l : LaneId} {s t : State} (h : OnlyLane l s t) : t.portSide = s.portSide :=
  State.portSide_eq_iff.mpr ⟨h.ports, h.beat⟩

theorem OnlyLanes.portSide {p : LaneId → Prop} {s t : State} (h : OnlyLanes p s t) : t.portSide = s.portSide :=
  State.portSide_eq_iff.mpr ⟨h.ports, h.beat⟩

section
variable (s : State)

theorem foldl_portSide {α : Type} {f : State → α → State} (hf : ∀ t a, (f t a).portSide = t.portSide) (as : List α) :
    (as.foldl f s).portSide = s.portSide :=
  List.foldlRecOn (motive := fun t : State => t.portSide = s.portSide) as f rfl fun t ht a _ => (hf t a).trans ht

theorem setSignal_portSide (n : SignalId) : (setSignal s n).portSide = s.portSide := (onlyLanes_setSignal s n).portSide

theorem setSignals_portSide (mask : Half) : (setSignals s mask).portSide = s.portSide :=
  foldl_portSide s (fun t n => by
    split
    · exact setSignal_portSide t n
    · rfl) allSignals

theorem faultWaiters_portSide (p : PortId) (dir : Direction) (role : Role) :
    (faultWaiters s p dir role).portSide = s.portSide := (onlyLanes_faultWaiters s p dir role).portSide

theorem releaseLanes_portSide (p : PortId) (dir : Direction) : (releaseLanes s p dir).portSide = s.portSide :=
  foldl_portSide s (fun t l => by
    split
    · exact ((onlyLane_updLane l t _).trans (onlyLane_removeReason _ l _)).portSide
    · rfl) allLanes

theorem releaseQueue_portSide : (releaseQueue s).portSide = s.portSide :=
  foldl_portSide s (fun t l => by
    split
    · exact (onlyLane_removeReason t l _).portSide
    · rfl) allLanes

theorem popQueue_portSide : (popQueue s).portSide = s.portSide := by
  unfold popQueue
  split
  · rfl
  · exact releaseQueue_portSide _

theorem lookupStart_portSide : (lookupStart s).portSide = s.portSide := by
  unfold lookupStart
  split <;> rfl

theorem lookupCompletion_portSide : (lookupCompletion s).portSide = s.portSide := by
  cases hk : s.map.lookup with
  | none => simp [lookupCompletion, hk]
  | some k => exact (onlyLane_lookupCompletion s k hk).portSide

theorem shootdown_portSide (page : BitVec 7) : (shootdown s page).portSide = s.portSide := by
  unfold shootdown
  rw [foldl_portSide _ fun t l => foldl_portSide t (fun u r => (onlyLane_shootCursor page u l r).portSide) allRoles,
    staleOnShootdown_eq]
  rfl

theorem resumeLane_portSide (l : LaneId) : (resumeLane s l).1.portSide = s.portSide := by
  unfold resumeLane
  split
  · unfold resumeHalted
    dsimp only
    split
    · exact (onlyLane_settle _ l _).portSide
    · split
      · next h =>
        obtain ⟨signals, rfl⟩ := satisfyWait_signals h
        exact (onlyLane_completeWait _ l).portSide
      · rfl
    · exact (onlyLane_settle _ l _).portSide
  · rfl

theorem laneCommandOf_portSide (code : BitVec 3) (l : LaneId) : (laneCommandOf code s l).1.portSide = s.portSide := by
  rcases laneCommandOf_cases code with h | h | h | h | h | h | h <;> rw [h]
  · exact (onlyLane_enableLane s l).portSide
  · exact (onlyLane_disableLane s l).portSide
  · exact (onlyLane_startLane s l).portSide
  · exact (onlyLane_haltLane s l).portSide
  · exact resumeLane_portSide s l
  · exact (onlyLane_abortLane s l).portSide

theorem laneCommand_portSide (lane : BitVec 4) (code : BitVec 3) :
    (laneCommand s lane (laneCommandOf code)).portSide = s.portSide := by
  unfold laneCommand
  split
  · exact laneCommandOf_portSide s code _
  · rfl

theorem writeRecordPointer_portSide (v : Half) : (writeRecordPointer s v).portSide = s.portSide := by
  unfold writeRecordPointer
  dsimp only
  split
  · split
    · exact (onlyLane_redirectLane s _ _).portSide
    · rfl
  · rfl

theorem splitLowWrite_portSide (item : Item32) (v : Half) : (splitLowWrite s item v).portSide = s.portSide := by
  unfold splitLowWrite
  split
  · rfl
  · split <;> rfl

theorem writeScheduleEntry_portSide (t : Table) (e : Fin 32) (v : Half) :
    (writeScheduleEntry s t e v).portSide = s.portSide := by
  unfold writeScheduleEntry
  dsimp only
  split
  · rfl
  · split <;> rfl

theorem readItem_portSide (i : Item) : (readItem s i).portSide = s.portSide := by
  unfold readItem
  split
  · unfold splitLowRead
    split <;> rfl
  · unfold splitHighRead
    split <;> rfl
  · rfl
  · rfl

theorem hostReading_portSide (i : Item) : (hostReading s fun s => readItem s i).portSide = s.portSide := by
  unfold hostReading
  split
  · rfl
  · exact readItem_portSide s i

end

end Sys2Proof.Machine
end

section
/-! SUPPORT. The word that a beat holds between the read and the write of a word step (R83): soundness of the ports in these
terms, and the operations after which a beat holds no word that it did not hold. -/

namespace Sys2Proof.Machine

/-! ### Held words -/

/-- A TRANSFER beat holds a word for a destination (R83). -/
def Beat.Holds (b : Beat) (dst : BeatCursor) (h : HeldWord) : Prop :=
  ∃ src moved stop, b.work = .transfer src dst moved (some h) stop

/-- A beat that holds no word. -/
def Beat.Unheld (b : Beat) : Prop := ∀ dst h, ¬ b.Holds dst h

/-- A word a beat holds is one of its words left to move, and is pushed only to an enabled transmit direction (R82, R83). -/
structure State.HeldSound (s : State) (b : Beat) (dst : BeatCursor) (h : HeldWord) : Prop where
  remaining : b.progress.remaining ≠ 0
  enabled : ∀ q d, dst.target = .port q d → h.discard = true ∨ (s.port q).txEnable = true

theorem heldSound_iff (s : State) (b : Beat) :
    (heldWordSound s b.work ∧ b.heldWordCounts) ↔ ∀ dst h, b.Holds dst h → s.HeldSound b dst h := by
  obtain ⟨lane, step, burst, progress, work⟩ := b
  constructor
  · rintro ⟨hword, hcounts⟩ ⟨page, target⟩ h ⟨src, moved, stop, rfl⟩
    refine ⟨hcounts, ?_⟩
    rintro q d rfl
    exact hword
  · intro hholds
    cases work with
    | transfer src dst moved held stop =>
      cases held with
      | none => exact ⟨by cases dst; unfold heldWordSound; split <;> simp_all, trivial⟩
      | some h =>
        have hsound := hholds dst h ⟨src, moved, stop, rfl⟩
        refine ⟨?_, hsound.remaining⟩
        obtain ⟨page, target⟩ := dst
        cases target with
        | memory => trivial
        | port q d => exact hsound.enabled q d rfl
    | _ => exact ⟨trivial, trivial⟩

/-- The ports are sound, and so is the word that the beat in progress holds, if it holds one. -/
theorem State.portsSound_iff {s : State} : s.portsSound ↔
    (∀ p, (s.port p).sound) ∧ ∀ b, s.beat = some b → ∀ dst h, b.Holds dst h → s.HeldSound b dst h :=
  and_congr_right fun _ => forall_congr' fun b => imp_congr_right fun _ => heldSound_iff s b

theorem State.portsSound.held {s : State} (hs : s.portsSound) {b : Beat} (hb : s.beat = some b) {dst : BeatCursor}
    {h : HeldWord} (hholds : b.Holds dst h) : s.HeldSound b dst h := (State.portsSound_iff.mp hs).2 b hb dst h hholds

/-! ### Beats that hold no new word -/

/-- From `s` to `t` the ports have not changed, and the beat in progress, if it is another, holds no word. -/
structure HoldsNoMore (s t : State) : Prop where
  ports : t.ports = s.ports
  beat : ∀ b, t.beat = some b → s.beat = some b ∨ b.Unheld

theorem HoldsNoMore.of_portSide {s t : State} (h : t.portSide = s.portSide) : HoldsNoMore s t := by
  obtain ⟨hports, hbeat⟩ := State.portSide_eq_iff.mp h
  exact ⟨hports, fun _ hb => .inl (hbeat ▸ hb)⟩

theorem HoldsNoMore.trans {s t u : State} (h : HoldsNoMore s t) (g : HoldsNoMore t u) : HoldsNoMore s u :=
  ⟨g.ports.trans h.ports, fun b hb => (g.beat b hb).elim (h.beat b) .inr⟩

/-- The beat changes alone, to none or to one that holds no word. -/
theorem holdsNoMore_withBeat (s : State) {beat : Option Beat} (h : ∀ b, beat = some b → b.Unheld) :
    HoldsNoMore s { s with beat := beat } := ⟨rfl, fun b hb => .inr (h b hb)⟩

theorem HoldsNoMore.portsSound {s t : State} (h : HoldsNoMore s t) (hs : s.portsSound) : t.portsSound := by
  refine State.portsSound_iff.mpr ⟨fun p => State.port_congr h.ports p ▸ hs.1 p, fun b hb dst w hholds => ?_⟩
  rcases h.beat b hb with hsame | hnone
  · have hsound := hs.held hsame hholds
    exact ⟨hsound.remaining, fun q d hdst => State.port_congr h.ports q ▸ hsound.enabled q d hdst⟩
  · exact absurd hholds (hnone dst w)

/-- The reads of a LOAD beat (R73). -/
theorem holdsNoMore_recordLoad (s : State) (n : Nat) : HoldsNoMore s (recordLoad s n) := by
  unfold recordLoad
  split
  · split
    · refine holdsNoMore_withBeat s fun b hb dst h ⟨src, moved, stop, hwork⟩ => ?_
      obtain rfl := Option.some.inj hb
      contradiction
    · exact .of_portSide rfl
  · exact .of_portSide rfl

/-- The read of a RESOLVE beat (R95). -/
theorem holdsNoMore_cellRead (s : State) : HoldsNoMore s (cellRead s) := by
  unfold cellRead
  split
  · split
    · split
      · refine holdsNoMore_withBeat s fun b hb dst h ⟨src, moved, stop, hwork⟩ => ?_
        obtain rfl := Option.some.inj hb
        contradiction
      · exact .of_portSide rfl
    · exact .of_portSide rfl
  · exact .of_portSide rfl

/-- The end of a beat (R72). -/
theorem holdsNoMore_beatEnd (s : State) : HoldsNoMore s (beatEnd s) := by
  cases hb : s.beat with
  | none => exact .of_portSide (by simp [beatEnd, hb])
  | some b =>
    cases hover : b.work.over with
    | false => exact .of_portSide (by simp [beatEnd, hb, hover])
    | true =>
      have htaken : BeatFrame { s with beat := none } (s.taken b) := (leaves_taken s b).beatFrame
      have hresults : BeatFrame { s with beat := none } (s.results b).1 :=
        ((keptByResults_beatFrame b.lane _).beatResult htaken b.work).state
      have hcounted : BeatFrame { s with beat := none } (countBeat (s.results b).1 b.lane) :=
        hresults.trans (leaves_countBeat rfl).toOnlyLane.beatFrame
      have hend := hcounted.trans (onlyLane_takeDeferred _ b.lane (s.lane b.lane).deferred b.step (s.results b).2).beatFrame
      rw [beatEnd_over hb hover]
      refine ⟨hend.ports, fun c hc => ?_⟩
      rw [hend.beat] at hc
      contradiction

/-- A beat begins with no word read (R59, R69). -/
theorem Lane.beatWork_unheld {x : Lane} {work : BeatWork} (h : x.beatWork = some work) (src dst : BeatCursor) (moved : Nat)
    (w : HeldWord) (stop : Option Stop) : work ≠ .transfer src dst moved (some w) stop := by
  rintro rfl
  unfold Lane.beatWork at h
  split at h
  · simp at h
  · simp at h
  · simp at h
  · split at h <;> simp at h
  · simp at h

theorem holdsNoMore_beginBeat (s : State) (l : LaneId) : HoldsNoMore s (beginBeat s l) := by
  unfold beginBeat
  dsimp only
  split
  · exact .of_portSide rfl
  · next work hwork =>
    refine holdsNoMore_withBeat s fun b hb dst h ⟨src, moved, stop, hholds⟩ => ?_
    obtain rfl := Option.some.inj hb
    exact Lane.beatWork_unheld hwork src dst moved h stop hholds

theorem holdsNoMore_spareAssignment (s : State) : HoldsNoMore s (spareAssignment s) := by
  unfold spareAssignment
  split
  · next l _ =>
    have hcredit : HoldsNoMore s (s.updLane l fun x => { x with credit := x.credit - 1 }) := .of_portSide rfl
    exact hcredit.trans (holdsNoMore_beginBeat _ l)
  · split
    · next l _ =>
      have hturn : HoldsNoMore s { s with wheel := { s.wheel with rotation := l } } := .of_portSide rfl
      exact hturn.trans (holdsNoMore_beginBeat _ l)
    · exact .of_portSide rfl

theorem holdsNoMore_decideSlot (s : State) : HoldsNoMore s (decideSlot s) := by
  have hgain (l : LaneId) : HoldsNoMore s (gainCredit s l) := by
    unfold gainCredit
    split <;> exact .of_portSide rfl
  unfold decideSlot
  split
  · exact .of_portSide rfl
  · split
    · split
      · exact holdsNoMore_beginBeat s _
      · exact (hgain _).trans (holdsNoMore_spareAssignment _)
    · exact holdsNoMore_spareAssignment s

/-- A slot tick begins a beat at most (R57, R59). -/
theorem holdsNoMore_slotTick (s : State) : HoldsNoMore s (slotTick s) := by
  cases hrun : s.wheel.running with
  | false =>
    rw [slotTick_stopped hrun]
    exact .of_portSide rfl
  | true =>
    have hcount := countedThrough_countTimeouts s.tickAdvanced
    have hadvanced : s.tickAdvanced.portSide = (decideSlot s).portSide := by
      rw [tickAdvanced_eq]
      rfl
    rw [slotTick_running hrun]
    exact ((holdsNoMore_decideSlot s).trans (.of_portSide hadvanced)).trans
      (.of_portSide (State.portSide_eq_iff.mpr ⟨hcount.ports, hcount.beat⟩))

theorem holdsNoMore_timebaseTick (s : State) : HoldsNoMore s (timebaseTick s) := by
  unfold timebaseTick
  split
  · split
    · exact holdsNoMore_slotTick s
    · exact .of_portSide rfl
  · exact .of_portSide rfl

theorem holdsNoMore_waitTimeout (s : State) (l : LaneId) : HoldsNoMore s (waitTimeout s l) := by
  rcases waitTimeout_cases s l with e | e <;> rw [e]
  · exact holdsNoMore_slotTick s
  · exact .of_portSide rfl

end Sys2Proof.Machine
end

section
/-! SUPPORT. Other ports and other interrupt bits are the same to the operations on lanes and cursors: they do alike, whatever
those are. -/

namespace Sys2Proof.Machine

/-- The state with other ports, and with the bits of a mask set in INT_STATUS. -/
def State.withPorts (s : State) (ports : Vector Port 4) (mask : BitVec 8) : State :=
  { s with ports := ports, ints := s.ints.setting mask }

/-! ### The operations on cursors and the record copy -/

section
variable (s : State) (ports : Vector Port 4) (mask : BitVec 8) (l : LaneId)

@[simp] theorem State.withPorts_lane : (s.withPorts ports mask).lane l = s.lane l := rfl

@[simp] theorem State.withPorts_updLane (f : Lane → Lane) :
    (s.withPorts ports mask).updLane l f = (s.updLane l f).withPorts ports mask := rfl

@[simp] theorem State.withPorts_setLane (x : Lane) :
    (s.withPorts ports mask).setLane l x = (s.setLane l x).withPorts ports mask := rfl

@[simp] theorem State.withPorts_setInt (b : IntBit) :
    (s.withPorts ports mask).setInt b = (s.setInt b).withPorts ports mask := by
  simp [State.setInt, State.withPorts, Interrupts.setting, BitVec.or_assoc, BitVec.or_comm]

@[simp] theorem retarget_withPorts (r : Role) (page : BitVec 7) :
    retarget (s.withPorts ports mask) l r page = (retarget s l r page).withPorts ports mask := by
  unfold retarget
  simp only [State.withPorts_lane]
  cases ((s.lane l).cursor r).status <;> dsimp only
  case unset | pending => rfl
  case inFlight | mapped =>
    rw [apply_ite (State.withPorts · ports mask)]
    rfl

@[simp] theorem release_withPorts (r : Role) :
    release (s.withPorts ports mask) l r = (release s l r).withPorts ports mask := by
  unfold release
  simp only [State.withPorts_lane]
  cases ((s.lane l).cursor r).status <;> rfl

@[simp] theorem releaseAll_withPorts : releaseAll (s.withPorts ports mask) l = (releaseAll s l).withPorts ports mask := by
  simp [releaseAll, allRoles]

@[simp] theorem dropCopy_withPorts : dropCopy (s.withPorts ports mask) l = (dropCopy s l).withPorts ports mask := by
  rw [dropCopy_eq, dropCopy_eq]
  rfl

/-! ### Entries into lane states, wakes and asynchronous faults -/

@[simp] theorem settle_withPorts (reasons : Reasons) :
    settle (s.withPorts ports mask) l reasons = (settle s l reasons).withPorts ports mask := rfl

@[simp] theorem enterHalted_withPorts (reason : HaltReason) (resume : Resume) :
    enterHalted (s.withPorts ports mask) l reason resume = (enterHalted s l reason resume).withPorts ports mask := by
  simp [enterHalted]

@[simp] theorem enterFaulted_withPorts (f : FaultRecord) :
    enterFaulted (s.withPorts ports mask) l f = (enterFaulted s l f).withPorts ports mask := by
  simp [enterFaulted]

theorem asyncFault_withPorts (cause : FaultCause) (role : Role) :
    asyncFault (s.withPorts ports mask) l cause role = (asyncFault s l cause role).withPorts ports mask := by
  have hown : (s.withPorts ports mask).ownBeat l = s.ownBeat l := rfl
  unfold asyncFault
  simp only [State.withPorts_lane, hown, enterFaulted_withPorts]
  cases (s.lane l).state <;> dsimp only
  case active => split <;> rfl

theorem completeAdvance_withPorts : completeAdvance (s.withPorts ports mask) l =
    ((completeAdvance s l).1.withPorts ports mask, (completeAdvance s l).2) := by
  simp only [completeAdvance, dropCopy_withPorts, State.withPorts_updLane, State.withPorts_lane, retarget_withPorts]
  split <;> rfl

@[simp] theorem applyVerdict_withPorts (step : Bool) (v : Verdict) :
    applyVerdict (s.withPorts ports mask) l step v = (applyVerdict s l step v).withPorts ports mask := by
  cases v with
  | completed => cases step <;> simp [applyVerdict]
  | idle => simp [applyVerdict, enterIdleAtStop]
  | _ => simp [applyVerdict]

@[simp] theorem completeWait_withPorts :
    completeWait (s.withPorts ports mask) l = (completeWait s l).withPorts ports mask := by
  simp [completeWait, completeAdvance_withPorts]

/-! ### Lanes in turn -/

/-- A fold of operations that do alike on the state with other ports. -/
theorem foldl_withPorts {α : Type} {f : State → α → State}
    (hf : ∀ t a, f (t.withPorts ports mask) a = (f t a).withPorts ports mask) : ∀ (as : List α) (s : State),
      as.foldl f (s.withPorts ports mask) = (as.foldl f s).withPorts ports mask
  | [], _ => rfl
  | a :: as, s => by rw [List.foldl_cons, hf, foldl_withPorts hf as, List.foldl_cons]

/-- The waiters of a signal are the same, whatever the ports, and wake alike (R124, R125). -/
theorem setSignal_withPorts (n : SignalId) :
    setSignal (s.withPorts ports mask) n = (setSignal s n).withPorts ports mask := by
  cases hset : s.signals.getLsbD n.val with
  | true => rw [setSignal_of_set hset, setSignal_of_set (s := s.withPorts ports mask) hset]
  | false =>
    rw [setSignal_of_clear hset, setSignal_of_clear (s := s.withPorts ports mask) hset]
    exact foldl_withPorts ports mask (fun t l => completeWait_withPorts t ports mask l) (wokenBy s n)
      (s.withSignals (s.signalsAfterSet n))

theorem faultWaiters_withPorts (p : PortId) (dir : Direction) (role : Role) :
    faultWaiters (s.withPorts ports mask) p dir role = (faultWaiters s p dir role).withPorts ports mask := by
  refine foldl_withPorts ports mask (fun t l => ?_) allLanes s
  rw [State.withPorts_lane]
  split
  · exact asyncFault_withPorts t ports mask l .portOff role
  · rfl

end

end Sys2Proof.Machine
end

section
/-! SUPPORT. Updates of a port, the disables of its directions, and a write of PORT_CONFIG as its disables followed by its
fields (R149, R152). -/

namespace Sys2Proof.Machine

/-! ### Updates of a port -/

/-- Two states with the same ports by number have the same ports. -/
theorem State.ports_ext {s t : State} (h : ∀ p, t.port p = s.port p) : t.ports = s.ports := by
  apply Vector.ext
  intro i hi
  exact h ⟨i, hi⟩

@[simp] theorem State.updPort_updPort (s : State) (p : PortId) (f g : Port → Port) :
    (s.updPort p f).updPort p g = s.updPort p fun x => g (f x) := by
  have hports : ((s.updPort p f).updPort p g).ports = (s.updPort p fun x => g (f x)).ports :=
    State.ports_ext fun q => by
      by_cases e : q = p
      · simp [e]
      · simp [State.port_updPort_other _ _ e]
  calc (s.updPort p f).updPort p g = { s with ports := ((s.updPort p f).updPort p g).ports } := rfl
    _ = s.updPort p fun x => g (f x) := by rw [hports]; rfl

/-- An update reads no more than the port as it stands. -/
theorem State.updPort_congr {s : State} {p : PortId} {f g : Port → Port} (h : f (s.port p) = g (s.port p)) :
    s.updPort p f = s.updPort p g := by
  rw [State.updPort, State.updPort, h]

theorem State.updPort_eq_withPorts (s : State) (p : PortId) (f : Port → Port) :
    s.updPort p f = s.withPorts (s.updPort p f).ports 0 := by
  rw [State.withPorts, show (0 : BitVec 8) = 0#8 from rfl, Interrupts.setting_zero]
  rfl

/-- An update of a port leaves every other port, and nothing else of the state changes. -/
theorem updPort_keeps (s : State) (p : PortId) (f : Port → Port) :
    OtherPortsKept s (s.updPort p f) p ∧ s.updPort p f = { s with ports := (s.updPort p f).ports } :=
  ⟨fun _ hq => State.port_updPort_other s f hq, rfl⟩

/-! ### Disables -/

/-- A port once its receive direction has been disabled (R152). -/
def Port.rxDisabled (x : Port) : Port := { x with rxFifo := [], capture := false }

/-- A port once its transmit direction has been disabled (R152). -/
def Port.txDisabled (x : Port) : Port := { x with txFifo := [], shiftWord := 0 }

/-- A beat after a disable of a port's transmit direction (R83, R152). -/
def Beat.discarding (b : Beat) (p : PortId) : Beat := { b with work := b.work.discarding p }

theorem discardHeld_eq (s : State) (p : PortId) : discardHeld s p = { s with beat := s.beat.map (·.discarding p) } := by
  have hkept {b : Beat} (hb : s.beat = some b) (h : b.work.discarding p = b.work) :
      s = { s with beat := s.beat.map (·.discarding p) } := by
    rw [hb, Option.map_some, Beat.discarding, h, ← hb]
  unfold discardHeld
  split
  · next b hb =>
    split
    · next hwork =>
      split
      · next e =>
        subst e
        simp [hb, Beat.discarding, hwork, BeatWork.discarding]
      · next e => exact hkept hb (by simp [hwork, BeatWork.discarding, e])
    · next hother =>
      refine hkept hb ?_
      unfold BeatWork.discarding
      split
      · next e => exact absurd e (hother _ _ _ _ _ _ _)
      · rfl
  · next hb => rw [hb, Option.map_none, ← hb]

theorem faultWaiters_updPort (s : State) (p q : PortId) (f : Port → Port) (dir : Direction) (role : Role) :
    faultWaiters (s.updPort q f) p dir role = (faultWaiters s p dir role).updPort q f := by
  have hports := (onlyLanes_faultWaiters s p dir role).ports
  rw [State.updPort_eq_withPorts s, faultWaiters_withPorts, State.updPort_eq_withPorts (faultWaiters s p dir role)]
  simp only [State.updPort, State.port_congr hports, hports]

/-- A disable of a receive direction faults its waiters and empties it (R152). -/
theorem disableRx_eq (s : State) (p : PortId) :
    disableRx s p = (faultWaiters s p .rx .src).updPort p Port.rxDisabled := faultWaiters_updPort s p p _ .rx .src

/-- A disable of a transmit direction marks the word held for it, faults its waiters and empties it (R83, R152). -/
theorem disableTx_eq (s : State) (p : PortId) :
    disableTx s p = (faultWaiters (discardHeld s p) p .tx .dst).updPort p Port.txDisabled := by
  rw [← faultWaiters_updPort, discardHeld_eq, disableTx, discardHeld_eq]
  rfl

/-! ### A write of PORT_CONFIG -/

/-- The first part of a PORT_CONFIG write: a receive direction that it clears is disabled (R152). -/
def State.clearRx (s : State) (p : PortId) (v : Half) : State :=
  if (s.port p).rxEnable && !v.getLsbD 0 then disableRx s p else s

/-- The second part: a transmit direction that it clears is disabled (R152). -/
def State.clearTx (s : State) (p : PortId) (v : Half) : State :=
  if (s.port p).txEnable && !v.getLsbD 1 then disableTx s p else s

theorem disableRx_configured (s : State) (p : PortId) (v : Half) :
    disableRx (s.updPort p (·.configured v)) p = (disableRx s p).updPort p (·.configured v) := by
  rw [disableRx_eq, disableRx_eq, faultWaiters_updPort, State.updPort_updPort, State.updPort_updPort]
  rfl

theorem disableTx_configured (s : State) (p : PortId) (v : Half) :
    disableTx (s.updPort p (·.configured v)) p = (disableTx s p).updPort p (·.configured v) := by
  have hdiscard : discardHeld (s.updPort p (·.configured v)) p = (discardHeld s p).updPort p (·.configured v) := by
    rw [discardHeld_eq, discardHeld_eq]
    rfl
  rw [disableTx_eq, disableTx_eq, hdiscard, faultWaiters_updPort, State.updPort_updPort, State.updPort_updPort]
  rfl

theorem disableRx_port (s : State) (p : PortId) : (disableRx s p).port p = (s.port p).rxDisabled := by
  rw [disableRx_eq, State.port_updPort_same, State.port_congr (onlyLanes_faultWaiters s p .rx .src).ports]

theorem disableTx_port (s : State) (p : PortId) : (disableTx s p).port p = (s.port p).txDisabled := by
  rw [disableTx_eq, State.port_updPort_same, State.port_congr (onlyLanes_faultWaiters _ p .tx .dst).ports, discardHeld_eq]
  rfl

theorem State.clearRx_txEnable (s : State) (p : PortId) (v : Half) :
    ((s.clearRx p v).port p).txEnable = (s.port p).txEnable := by
  unfold State.clearRx
  split
  · rw [disableRx_port]
    rfl
  · rfl

/-- A write of PORT_CONFIG disables the directions that it clears, receive before transmit, and gives the port its fields (R149,
R152). -/
theorem writePortConfig_eq (s : State) (p : PortId) (v : Half) :
    writePortConfig s p v = ((s.clearRx p v).clearTx p v).updPort p (·.configured v) := by
  have hrx : (if (s.port p).rxEnable && !v.getLsbD 0 then disableRx (s.updPort p (·.configured v)) p
      else s.updPort p (·.configured v)) = (s.clearRx p v).updPort p (·.configured v) := by
    unfold State.clearRx
    split
    · exact disableRx_configured s p v
    · rfl
  have hconfig : writePortConfig s p v =
      let t := if (s.port p).rxEnable && !v.getLsbD 0 then disableRx (s.updPort p (·.configured v)) p
        else s.updPort p (·.configured v)
      if (s.port p).txEnable && !v.getLsbD 1 then disableTx t p else t := rfl
  rw [hconfig]
  dsimp only
  rw [hrx, State.clearTx, State.clearRx_txEnable]
  split
  · exact disableTx_configured _ p v
  · rfl

end Sys2Proof.Machine
end

section
/-! CERTIFICATE. Every step keeps the ports sound: 0 to 32 words in a FIFO, none for a disabled direction, and words left to move
while a beat holds one (R82, R83, R144, R148, R151, R152; log 32); O59. -/

namespace Sys2Proof.Machine

/-! ### Updates of a port -/

/-- No word that the beat in progress holds will be pushed to a port (R83; log 28). -/
def State.Unsent (s : State) (p : PortId) : Prop :=
  ∀ b dst h d, s.beat = some b → b.Holds dst h → dst.target = .port p d → h.discard = true

/-- A disabled transmit direction takes no held word. -/
theorem State.portsSound.unsent {s : State} (hs : s.portsSound) {p : PortId} (hoff : (s.port p).txEnable = false) :
    s.Unsent p := fun b dst h d hb hholds hdst =>
  ((hs.held hb hholds).enabled p d hdst).resolve_right (by simp [hoff])

/-- A port update keeps soundness, if the port is sound after it and no held word is for a transmit direction that is then
disabled. -/
theorem portsSound_updPort {s : State} (hs : s.portsSound) {p : PortId} {f : Port → Port} (hf : (f (s.port p)).sound)
    (hunsent : (f (s.port p)).txEnable = false → s.Unsent p) : (s.updPort p f).portsSound := by
  refine State.portsSound_iff.mpr ⟨fun q => ?_, fun b hb dst h hholds => ?_⟩
  · by_cases e : q = p
    · rw [e, State.port_updPort_same]
      exact hf
    · rw [State.port_updPort_other _ _ e]
      exact hs.1 q
  · obtain ⟨hremaining, henabled⟩ := hs.held hb hholds
    refine ⟨hremaining, fun q d hdst => ?_⟩
    by_cases e : q = p
    · subst e
      rw [State.port_updPort_same]
      cases hon : (f (s.port q)).txEnable with
      | false => exact .inl (hunsent hon b dst h d hb hholds hdst)
      | true => exact .inr rfl
    · rw [State.port_updPort_other _ _ e]
      exact henabled q d hdst

/-- An update of a port that keeps it sound and leaves its transmit enable. -/
theorem portsSound_updPort_kept {s : State} (hs : s.portsSound) {p : PortId} {f : Port → Port}
    (hf : (s.port p).sound → (f (s.port p)).sound) (htx : (f (s.port p)).txEnable = (s.port p).txEnable := by rfl) :
    (s.updPort p f).portsSound :=
  portsSound_updPort hs (hf (hs.1 p)) fun hoff => hs.unsent (htx ▸ hoff)

theorem portsSound_of_portSide {s t : State} (hs : s.portsSound) (h : t.portSide = s.portSide) : t.portsSound :=
  (HoldsNoMore.of_portSide h).portsSound hs

/-! ### Word steps -/

/-- The first of the tests that holds ends the word steps; where none holds a word may move (R82). -/
theorem wordMayMove_of_stopBefore {s : State} {b : Beat} {r : RecordCopy} {src dst : BeatCursor} {moved : Nat}
    (h : s.stopBefore b r src dst moved = none) : s.wordMayMove b r src dst moved := by
  simp only [State.stopBefore, ite_eq_iff, reduceCtorEq, and_false, false_or] at h
  obtain ⟨hremaining, hburst, hcrossed, hsourceOn, hdestinationOn, hfifos⟩ := h
  obtain ⟨hsrcPage, hdstPage⟩ := not_or.mp hcrossed
  refine ⟨hremaining, hburst, Bool.eq_false_iff.mpr hsrcPage, Bool.eq_false_iff.mpr hdstPage, fun p d hsrc => ?_,
    fun q d hdst => ?_⟩
  · rw [hsrc] at hsourceOn hfifos
    refine ⟨by simpa [State.sourceOff] using hsourceOn, ?_⟩
    cases htarget : dst.target <;> simp [htarget, ite_eq_iff] at hfifos
    · exact hfifos
    · exact hfifos.1
  · rw [hdst] at hdestinationOn hfifos
    refine ⟨by simpa [State.destinationOff] using hdestinationOn, ?_⟩
    cases htarget : src.target <;> simp [htarget, ite_eq_iff] at hfifos
    · exact hfifos
    · exact hfifos.2

/-- The read part of a word step changes nothing, ends the word steps, or moves a word (R82). -/
theorem wordRead_cases (s : State) : wordRead s = s ∨
    (∃ (b : Beat) (src dst : BeatCursor) (moved : Nat) (stop : Stop),
      wordRead s = s.withBeat { b with work := .transfer src dst moved none (some stop) }) ∨
    ∃ b r src dst moved, WordMoves s b r src dst moved := by
  unfold wordRead
  split
  · next b hb =>
    split
    · next src dst moved r hwork hcopy =>
      split
      · next stop _ => exact .inr (.inl ⟨b, src, dst, moved, stop, rfl⟩)
      · next htests =>
        rw [transferTests_eq] at htests
        exact .inr (.inr ⟨b, r, src, dst, moved, hb, hcopy, hwork, wordMayMove_of_stopBefore htests⟩)
    · exact .inl rfl
  · exact .inl rfl

/-- The write part of a word step changes nothing, or writes the word held (R83). -/
theorem wordWrite_cases (s : State) : wordWrite s = s ∨ ∃ b r src dst moved h,
    s.beat = some b ∧ b.progress.current = some r ∧ b.work = .transfer src dst moved (some h) none := by
  unfold wordWrite
  split
  · next b hb =>
    split
    · next src dst moved h r hwork hcopy => exact .inr ⟨b, r, src, dst, moved, h, hb, hcopy, hwork⟩
    · exact .inl rfl
  · exact .inl rfl

/-- Another beat in progress, with the ports as they are. -/
theorem portsSound_withBeat {s : State} (hs : s.portsSound) {b : Beat}
    (hheld : ∀ dst h, b.Holds dst h → s.HeldSound b dst h) : (s.withBeat b).portsSound := by
  refine State.portsSound_iff.mpr ⟨hs.1, fun c hc dst h hholds => ?_⟩
  obtain rfl := Option.some.inj hc
  exact ⟨(hheld dst h hholds).remaining, (hheld dst h hholds).enabled⟩

theorem portsSound_readSource {s : State} (hs : s.portsSound) (target : Translation) (position : LAddr) :
    (readSource s target position).2.portsSound := by
  unfold readSource
  split
  · exact hs
  · next p d =>
    split
    · exact hs
    · next w rest hfifo =>
      refine portsSound_updPort_kept hs fun ⟨hrx, htx, hrxOff, htxOff, hbits, hframe⟩ => ⟨?_, htx, fun hoff => ?_, htxOff,
        hbits, hframe⟩
      · rw [hfifo, List.length_cons] at hrx
        exact Nat.le_of_succ_le hrx
      · exact absurd (hfifo.symm.trans (hrxOff hoff).1) (List.cons_ne_nil w rest)

theorem length_pushFifo {fifo : List Word} (h : fifo.length ≤ 32) (w : Word) : (pushFifo fifo w).length ≤ 32 := by
  unfold pushFifo Config.fifoWords
  split
  · exact h
  · simp only [List.length_append, List.length_singleton]
    omega

/-- A word is pushed only to an enabled transmit direction (R83). -/
theorem portsSound_writeDestination {s : State} (hs : s.portsSound) {target : Translation} {h : HeldWord}
    (henabled : ∀ q d, target = .port q d → h.discard = true ∨ (s.port q).txEnable = true) (position : LAddr) :
    (writeDestination s target position h).portsSound := by
  unfold writeDestination
  split
  · exact hs
  · next q d =>
    split
    · exact hs
    · next hkeep =>
      have hon : (s.port q).txEnable = true := (henabled q d rfl).resolve_left hkeep
      exact portsSound_updPort_kept hs fun ⟨hrx, htx, hrxOff, _, hbits, hframe⟩ =>
        ⟨hrx, length_pushFifo htx h.word, hrxOff, fun hoff => absurd (hon.symm.trans hoff) (by decide), hbits, hframe⟩

theorem portsSound_wordRead {s : State} (hs : s.portsSound) : (wordRead s).portsSound := by
  rcases wordRead_cases s with e | ⟨b, src, dst, moved, stop, e⟩ | ⟨b, r, src, dst, moved, hmoves⟩
  · exact e.symm ▸ hs
  · rw [e]
    refine portsSound_withBeat hs fun _ h ⟨_, _, _, hwork⟩ => ?_
    simp at hwork
  · rw [hmoves.read]
    refine portsSound_withBeat (portsSound_readSource hs _ _) fun _ h ⟨_, _, _, hwork⟩ => ?_
    obtain ⟨-, rfl, -, -, -⟩ := BeatWork.transfer.inj hwork
    refine ⟨hmoves.remaining, fun q d hdst => .inr ?_⟩
    rw [readSource_txEnable]
    exact (hmoves.destination hdst).1

theorem portsSound_wordWrite {s : State} (hs : s.portsSound) : (wordWrite s).portsSound := by
  rcases wordWrite_cases s with e | ⟨b, r, src, dst, moved, h, hb, hcopy, hwork⟩
  · exact e.symm ▸ hs
  · obtain ⟨hremaining, henabled⟩ := hs.held hb ⟨src, moved, none, hwork⟩
    rw [wordWrite_moves hb hcopy hwork hremaining]
    refine portsSound_withBeat (portsSound_writeDestination hs henabled _) fun _ h ⟨_, _, _, hholds⟩ => ?_
    simp [Beat.afterWord] at hholds

theorem portsSound_wordStep {s : State} (hs : s.portsSound) (part : WordStepPart) : (wordStep s part).portsSound := by
  cases part with
  | read => exact portsSound_wordRead hs
  | write => exact portsSound_wordWrite hs
  | whole => exact portsSound_wordWrite (portsSound_wordRead hs)

/-! ### Frames -/

theorem portsSound_frameError {s : State} (hs : s.portsSound) (p : PortId) : (frameError s p).portsSound := by
  unfold frameError
  split
  · have hcounted := portsSound_updPort_kept hs (p := p)
      (f := fun x => { x with frameErrors := satInc x.frameErrors, frameErrorFlag := true }) id
    exact hcounted
  · exact hs

theorem portsSound_frameStartTransmit {s : State} (hs : s.portsSound) (p : PortId) :
    (frameStartTransmit s p).portsSound := by
  unfold frameStartTransmit
  dsimp only
  split
  · exact portsSound_updPort_kept hs fun ⟨hrx, htx, hrxOff, htxOff, hbits, hframe⟩ =>
      ⟨hrx, htx, hrxOff, fun hoff => ⟨(htxOff hoff).1, rfl⟩, hbits, hframe⟩
  · next henabled =>
    have hon : (s.port p).txEnable = true := by simpa using henabled
    have hnotOff {P : Prop} (hoff : (s.port p).txEnable = false) : P := absurd (hon.symm.trans hoff) (by decide)
    split
    · next w rest hfifo =>
      refine portsSound_of_portSide ?_ (releaseLanes_portSide _ p .tx)
      have hpopped : (s.updPort p fun x => { x with txFifo := rest, shiftWord := w }).portsSound := by
        refine portsSound_updPort_kept hs fun ⟨hrx, htx, hrxOff, _, hbits, hframe⟩ =>
          ⟨hrx, ?_, hrxOff, hnotOff, hbits, hframe⟩
        rw [hfifo, List.length_cons] at htx
        exact Nat.le_of_succ_le htx
      split
      · exact portsSound_of_portSide hpopped (setSignal_portSide _ _)
      · exact hpopped
    · have hidle := portsSound_updPort_kept hs (p := p)
        (f := fun x => { x with shiftWord := x.idleWord, underruns := satInc x.underruns, underrunFlag := true })
        fun ⟨hrx, htx, hrxOff, _, hbits, hframe⟩ => ⟨hrx, htx, hrxOff, hnotOff, hbits, hframe⟩
      exact hidle

theorem portsSound_frameStart {s : State} (hs : s.portsSound) (p : PortId) : (frameStart s p).portsSound := by
  have herror : (if (s.port p).inFrame then frameError s p else s).portsSound := by
    split
    · exact portsSound_frameError hs p
    · exact hs
  exact portsSound_frameStartTransmit (portsSound_updPort_kept herror fun ⟨hrx, htx, hrxOff, htxOff, _, _⟩ =>
    ⟨hrx, htx, fun hoff => ⟨(hrxOff hoff).1, hoff⟩, htxOff, Nat.zero_le 31, nofun⟩) p

/-- A received word is pushed only while its capture is set, so to an enabled receive direction with room (R146). -/
theorem portsSound_offerReceived {s : State} (hs : s.portsSound) (p : PortId) (w : Word) :
    (offerReceived s p w).portsSound := by
  unfold offerReceived
  dsimp only
  split
  · exact hs
  · next hcapture =>
    have hcaptured : (s.port p).capture = true := by simpa using hcapture
    split
    · have hoverrun := portsSound_updPort_kept hs (p := p)
        (f := fun x => { x with overruns := satInc x.overruns, overrunFlag := true }) id
      exact hoverrun
    · next hroom =>
      refine portsSound_of_portSide ?_ (releaseLanes_portSide _ p .rx)
      have hpushed : (s.updPort p fun x => { x with rxFifo := x.rxFifo ++ [w] }).portsSound := by
        refine portsSound_updPort_kept hs fun ⟨_, htx, hrxOff, htxOff, hbits, hframe⟩ =>
          ⟨?_, htx, fun hoff => ?_, htxOff, hbits, hframe⟩
        · rw [List.length_append, List.length_singleton]
          exact Nat.lt_of_not_le hroom
        · exact absurd (hcaptured.symm.trans (hrxOff hoff).2) (by decide)
      split
      · exact portsSound_of_portSide hpushed (setSignal_portSide _ _)
      · exact hpushed

theorem portsSound_frameEnd {s : State} (hs : s.portsSound) (p : PortId) (sdi : Bool) : (frameEnd s p sdi).portsSound := by
  unfold frameEnd
  dsimp only
  split
  · exact portsSound_offerReceived (portsSound_updPort_kept hs fun ⟨hrx, htx, hrxOff, htxOff, _, _⟩ =>
      ⟨hrx, htx, hrxOff, htxOff, Nat.zero_le 31, fun _ => rfl⟩) p _
  · exact hs

theorem portsSound_sckPeriod {s : State} (hs : s.portsSound) (p : PortId) (sdi : Bool) :
    (sckPeriod s p sdi).portsSound := by
  unfold sckPeriod
  dsimp only
  split
  · exact hs
  · next hframe =>
    have hin : (s.port p).inFrame = true := by simpa using hframe
    split
    · next hbit => exact portsSound_updPort_kept hs fun ⟨hrx, htx, hrxOff, htxOff, _, _⟩ =>
        ⟨hrx, htx, hrxOff, htxOff, hbit, fun hbetween => absurd (hin.symm.trans hbetween) (by decide)⟩
    · exact portsSound_frameEnd hs p sdi

/-! ### Writes of PORT_CONFIG -/

theorem Port.sound_rxDisabled {x : Port} (h : x.sound) : x.rxDisabled.sound := by
  obtain ⟨-, htx, -, htxOff, hbits, hframe⟩ := h
  exact ⟨Nat.zero_le 32, htx, fun _ => ⟨rfl, rfl⟩, htxOff, hbits, hframe⟩

theorem Port.sound_txDisabled {x : Port} (h : x.sound) : x.txDisabled.sound := by
  obtain ⟨hrx, -, hrxOff, -, hbits, hframe⟩ := h
  exact ⟨hrx, Nat.zero_le 32, hrxOff, fun _ => ⟨rfl, rfl⟩, hbits, hframe⟩

theorem portsSound_disableRx {s : State} (hs : s.portsSound) (p : PortId) : (disableRx s p).portsSound := by
  have hfaulted := portsSound_of_portSide hs (faultWaiters_portSide s p .rx .src)
  rw [disableRx_eq]
  generalize faultWaiters s p .rx .src = t at hfaulted
  exact portsSound_updPort_kept hfaulted Port.sound_rxDisabled

/-- A disable marks the word held for its port, and no other (R83, R152). -/
theorem Beat.holds_discarding {b : Beat} {p : PortId} {dst : BeatCursor} {h : HeldWord}
    (hholds : (b.discarding p).Holds dst h) : ∃ k : HeldWord, b.Holds dst k ∧ (k.discard = true → h.discard = true) ∧
      ∀ d, dst.target = .port p d → h.discard = true := by
  obtain ⟨src, moved, stop, hwork⟩ := hholds
  simp only [Beat.discarding] at hwork
  unfold BeatWork.discarding at hwork
  split at hwork
  · next hb =>
    split at hwork
    · obtain ⟨rfl, rfl, rfl, hheld, rfl⟩ := BeatWork.transfer.inj hwork
      obtain rfl := Option.some.inj hheld
      exact ⟨_, ⟨_, _, _, hb⟩, fun _ => rfl, fun _ _ => rfl⟩
    · next hother =>
      obtain ⟨rfl, rfl, rfl, hheld, rfl⟩ := BeatWork.transfer.inj hwork
      obtain rfl := Option.some.inj hheld
      refine ⟨_, ⟨_, _, _, hb⟩, id, fun d hdst => ?_⟩
      simp only [Translation.port.injEq] at hdst
      exact absurd hdst.1 hother
  · next hother =>
    refine ⟨h, ⟨src, moved, stop, hwork⟩, id, fun d hdst => ?_⟩
    obtain ⟨page, target⟩ := dst
    obtain rfl : target = .port p d := hdst
    exact absurd hwork (hother _ _ _ _ _ _ _)

theorem portsSound_discardHeld {s : State} (hs : s.portsSound) (p : PortId) :
    (discardHeld s p).portsSound ∧ (discardHeld s p).Unsent p := by
  rw [discardHeld_eq]
  refine ⟨State.portsSound_iff.mpr ⟨hs.1, fun c hc dst h hholds => ?_⟩, fun c dst h d hc hholds hdst => ?_⟩
  all_goals
    obtain ⟨b, hb, rfl⟩ := Option.map_eq_some_iff.mp hc
    obtain ⟨k, hbefore, hkeeps, hmarks⟩ := Beat.holds_discarding hholds
  · obtain ⟨hremaining, henabled⟩ := hs.held hb hbefore
    exact ⟨hremaining, fun q d hdst => (henabled q d hdst).imp_left hkeeps⟩
  · exact hmarks d hdst

theorem State.unsent_congr {s t : State} {p : PortId} (h : t.beat = s.beat) (hs : s.Unsent p) : t.Unsent p :=
  fun b dst w d hb => hs b dst w d (h ▸ hb)

theorem portsSound_disableTx {s : State} (hs : s.portsSound) (p : PortId) :
    (disableTx s p).portsSound ∧ (disableTx s p).Unsent p := by
  obtain ⟨hdiscarded, hunsent⟩ := portsSound_discardHeld hs p
  have hside := faultWaiters_portSide (discardHeld s p) p .tx .dst
  rw [disableTx_eq]
  generalize faultWaiters (discardHeld s p) p .tx .dst = t at hside
  exact ⟨portsSound_updPort_kept (portsSound_of_portSide hdiscarded hside) Port.sound_txDisabled,
    State.unsent_congr (State.portSide_eq_iff.mp hside).2 hunsent⟩

/-- Once a write's receive disable is made, a receive direction that the write clears is empty (R152). -/
theorem portsSound_clearRx {s : State} (hs : s.portsSound) (p : PortId) (v : Half) : (s.clearRx p v).portsSound ∧
    (v.getLsbD 0 = false → ((s.clearRx p v).port p).rxFifo = [] ∧ ((s.clearRx p v).port p).capture = false) := by
  unfold State.clearRx
  split
  · rw [disableRx_port]
    exact ⟨portsSound_disableRx hs p, fun _ => ⟨rfl, rfl⟩⟩
  · next hkept =>
    refine ⟨hs, fun hclear => ?_⟩
    obtain ⟨-, -, hrxOff, -, -, -⟩ := hs.1 p
    rw [hclear] at hkept
    exact hrxOff (by simpa using hkept)

/-- Once its transmit disable is made, a transmit direction that the write clears is empty, sends zeros, and is sent no held
word (R83, R152). -/
theorem portsSound_clearTx {s : State} (hs : s.portsSound) (p : PortId) (v : Half) : (s.clearTx p v).portsSound ∧
    (v.getLsbD 1 = false → ((s.clearTx p v).port p).txFifo = [] ∧ ((s.clearTx p v).port p).shiftWord = 0 ∧
      (s.clearTx p v).Unsent p) := by
  unfold State.clearTx
  split
  · obtain ⟨hsound, hunsent⟩ := portsSound_disableTx hs p
    rw [disableTx_port]
    exact ⟨hsound, fun _ => ⟨rfl, rfl, hunsent⟩⟩
  · next hkept =>
    refine ⟨hs, fun hclear => ?_⟩
    rw [hclear] at hkept
    have hoff : (s.port p).txEnable = false := by simpa using hkept
    obtain ⟨-, -, -, htxOff, -, -⟩ := hs.1 p
    exact ⟨(htxOff hoff).1, (htxOff hoff).2, hs.unsent hoff⟩

theorem State.clearTx_rx (s : State) (p : PortId) (v : Half) : ((s.clearTx p v).port p).rxFifo = (s.port p).rxFifo ∧
    ((s.clearTx p v).port p).capture = (s.port p).capture := by
  unfold State.clearTx
  split
  · rw [disableTx_port]
    exact ⟨rfl, rfl⟩
  · exact ⟨rfl, rfl⟩

theorem portsSound_writePortConfig {s : State} (hs : s.portsSound) (p : PortId) (v : Half) :
    (writePortConfig s p v).portsSound := by
  obtain ⟨hrxSound, hrxClear⟩ := portsSound_clearRx hs p v
  obtain ⟨hsound, htxClear⟩ := portsSound_clearTx hrxSound p v
  obtain ⟨hfifo, hcapture⟩ := (s.clearRx p v).clearTx_rx p v
  rw [writePortConfig_eq]
  obtain ⟨hrx, htx, -, -, hbits, hframe⟩ := hsound.1 p
  refine portsSound_updPort hsound ⟨hrx, htx, fun hoff => ?_, fun hoff => ?_, hbits, hframe⟩ fun hoff => (htxClear hoff).2.2
  · exact ⟨hfifo.trans (hrxClear hoff).1, hcapture.trans (hrxClear hoff).2⟩
  · exact ⟨(htxClear hoff).1, (htxClear hoff).2.1⟩

/-! ### Host writes and resets -/

/-- A part with every port as after a reset and no beat in progress. -/
theorem portsSound_idle {s : State} (hports : ∀ p, (s.port p).sound) (hbeat : s.beat = none) : s.portsSound :=
  ⟨hports, fun _ hb => absurd (hbeat.symm.trans hb) (by simp)⟩

theorem Port.sound_softReset {x : Port} (h : x.sound) : x.softReset.sound := by
  obtain ⟨-, -, -, -, hbits, hframe⟩ := h
  exact ⟨Nat.zero_le 32, Nat.zero_le 32, fun _ => ⟨rfl, rfl⟩, fun _ => ⟨rfl, rfl⟩, hbits, hframe⟩

theorem softReset_port (s : State) (p : PortId) : (softResetState s).port p = (s.port p).softReset := by
  fin_cases p <;> rfl

theorem portsSound_globalCommandOf {s : State} (hs : s.portsSound) (code : BitVec 4) :
    (globalCommandOf code s).1.portsSound := by
  rcases globalCommandOf_cases code with h | h | h | h | h | h <;> rw [h]
  · unfold startWheel
    split
    · exact hs
    · split <;> exact hs
  · unfold stopWheel
    split <;> exact hs
  · unfold rewindWheel
    split <;> exact hs
  · exact portsSound_idle (s := softResetState s) (fun p => softReset_port s p ▸ Port.sound_softReset (hs.1 p)) rfl
  · unfold eraseMemory
    split
    · exact hs
    · split <;> exact hs
  · exact hs

theorem portsSound_commitItem {s t : State} (hs : s.portsSound) {item : Item32} {w : Word}
    (h : commitItem s item w = some t) : t.portsSound := by
  cases item with
  | mapEntry page =>
    simp only [commitItem, commitMapEntry] at h
    split at h
    · rw [← Option.some.inj h]
      exact portsSound_of_portSide hs (shootdown_portSide _ page)
    · contradiction
  | idleWord p =>
    obtain rfl := Option.some.inj h
    exact portsSound_updPort_kept hs id
  | aperture => exact Option.some.inj h ▸ hs
  | slotCount | beats => contradiction

theorem portsSound_splitHighWrite {s : State} (hs : s.portsSound) (item : Item32) (v : Half) :
    (splitHighWrite s item v).portsSound := by
  unfold splitHighWrite
  split
  · exact hs
  · split
    · exact hs
    · split
      · split
        · next h =>
          have hcommitted := portsSound_commitItem hs h
          exact hcommitted
        · exact hs
      · exact hs

/-- A host write of any item keeps the ports sound (R174). -/
theorem portsSound_writeItem {s : State} (hs : s.portsSound) (i : Item) (offset : WindowOffset) (v : Half) :
    (writeItem s i offset v).portsSound := by
  have hkept {t : State} (h : t.portSide = s.portSide) : t.portsSound := portsSound_of_portSide hs h
  cases i with
  | globalCommand => exact portsSound_globalCommandOf hs _
  | queuePop => exact hkept (popQueue_portSide s)
  | signalSet => exact hkept (setSignals_portSide s v)
  | laneCommand => exact hkept (laneCommand_portSide s _ _)
  | recordPointer => exact hkept (writeRecordPointer_portSide s v)
  | portConfig p => exact portsSound_writePortConfig hs p v
  | portMarks p => exact portsSound_updPort_kept hs id
  | portStatus p => exact portsSound_updPort_kept hs id
  | portCounter p c => cases c <;> exact portsSound_updPort_kept hs id
  | scheduleEntry t e => exact hkept (writeScheduleEntry_portSide s t e v)
  | split item half =>
    cases half with
    | low => exact hkept (splitLowWrite_portSide s item v)
    | high => exact portsSound_splitHighWrite hs item v
  | slotPeriod =>
    rw [writeItem, writeSlotPeriod]
    split <;> exact hs
  | laneSelect =>
    rw [writeItem, writeLaneSelect]
    split <;> exact hs
  | _ => exact hs

/-! ### Every command and every step -/

theorem portsSound_unlessReset {s : State} {f : State → State} (hs : s.portsSound) (hf : (f s).portsSound) :
    (unlessReset s f).portsSound := unlessReset_cases hs fun _ => hf

theorem portsSound_hostAccess {s : State} (hs : s.portsSound) (offset : WindowOffset) (a : Access) :
    (hostAccess s offset a).portsSound := by
  cases a with
  | read => exact portsSound_of_portSide hs (hostReading_portSide s (itemAt offset))
  | write v => exact portsSound_unlessReset (f := fun s => writeItem s _ _ v) hs (portsSound_writeItem hs _ _ v)

theorem portsSound_exec {s : State} (hs : s.portsSound) (c : Instr) : Runs c s State.portsSound := by
  have hmoves {f : State → State} (h : HoldsNoMore s (f s)) : (unlessReset s f).portsSound :=
    portsSound_unlessReset hs (h.portsSound hs)
  have hread (i : Item) : (hostReading s fun s => readItem s i).portsSound :=
    portsSound_of_portSide hs (hostReading_portSide s i)
  have hwrite (i : Item) (v : Half) : (unlessReset s fun s => writeItem s i 0 v).portsSound :=
    portsSound_unlessReset hs (portsSound_writeItem hs i 0 v)
  have hlane (lane : BitVec 4) (code : BitVec 3) :
      (unlessReset s fun s => laneCommand s lane (laneCommandOf code)).portsSound :=
    hmoves (.of_portSide (laneCommand_portSide s lane code))
  have hglobal (code : BitVec 4) : (unlessReset s fun s => globalCommand s (globalCommandOf code)).portsSound :=
    portsSound_unlessReset hs (portsSound_globalCommandOf hs code)
  cases c with
  | enable lane => exact ⟨_, rfl, hlane lane 1⟩
  | disable lane => exact ⟨_, rfl, hlane lane 2⟩
  | start lane => exact ⟨_, rfl, hlane lane 3⟩
  | halt lane => exact ⟨_, rfl, hlane lane 4⟩
  | resume lane => exact ⟨_, rfl, hlane lane 5⟩
  | abort lane => exact ⟨_, rfl, hlane lane 6⟩
  | laneCommandUnknown lane code => exact ⟨_, rfl, hlane lane code⟩
  | wheelStart => exact ⟨_, rfl, hglobal 1⟩
  | wheelStop => exact ⟨_, rfl, hglobal 2⟩
  | wheelRewind => exact ⟨_, rfl, hglobal 3⟩
  | softReset => exact ⟨_, rfl, hglobal 4⟩
  | erase => exact ⟨_, rfl, hglobal 5⟩
  | globalCommandUnknown code => exact ⟨_, rfl, hglobal code⟩
  | clearPassEnd =>
    refine ⟨_, rfl, portsSound_unlessReset hs ?_⟩
    unfold clearPassEnd
    split <;> exact hs
  | resetAssert =>
    exact ⟨_, rfl, portsSound_idle (s := resetAssert s) (fun p => (reset_port p).symm ▸ (by decide : Port.reset.sound)) rfl⟩
  | resetRelease =>
    refine ⟨_, rfl, ?_⟩
    unfold resetRelease
    split <;> exact hs
  | recordPointerWrite v => exact ⟨_, rfl, hwrite .recordPointer v⟩
  | laneConfigWrite v => exact ⟨_, rfl, hwrite .laneConfig v⟩
  | laneSelectWrite v => exact ⟨_, rfl, hwrite .laneSelect v⟩
  | recordWordsRead => exact ⟨_, rfl, hread .recordWords⟩
  | scheduleEntryWrite table e v => exact ⟨_, rfl, hwrite (.scheduleEntry table e) v⟩
  | slotPeriodWrite v => exact ⟨_, rfl, hwrite .slotPeriod v⟩
  | tableSelectWrite v => exact ⟨_, rfl, hwrite .tableSelect v⟩
  | splitLowRead item => exact ⟨_, rfl, hread (.split item .low)⟩
  | splitHighRead item => exact ⟨_, rfl, hread (.split item .high)⟩
  | splitLowWrite item v => exact ⟨_, rfl, hwrite (.split item .low) v⟩
  | mapEntryCommit page v => exact ⟨_, rfl, hwrite (.split (.mapEntry page) .high) v⟩
  | apertureWordCommit word v => exact ⟨_, rfl, hwrite (.split (.aperture word) .high) v⟩
  | portIdleWordCommit p v => exact ⟨_, rfl, hwrite (.split (.idleWord p) .high) v⟩
  | aperturePageWrite v => exact ⟨_, rfl, hwrite .aperturePage v⟩
  | signalSet v => exact ⟨_, rfl, hwrite .signalSet v⟩
  | signalClear v => exact ⟨_, rfl, hwrite .signalClear v⟩
  | queuePop v => exact ⟨_, rfl, hwrite .queuePop v⟩
  | queueThresholdWrite v => exact ⟨_, rfl, hwrite .queueThreshold v⟩
  | intStatusWrite v => exact ⟨_, rfl, hwrite .intStatus v⟩
  | intEnableWrite v => exact ⟨_, rfl, hwrite .intEnable v⟩
  | portRxEnable p v | portTxEnable p v | portRxDisable p v | portTxDisable p v =>
    exact ⟨_, rfl, hwrite (.portConfig p) _⟩
  | portStatusWrite p v => exact ⟨_, rfl, hwrite (.portStatus p) v⟩
  | portCounterWrite p counter v => exact ⟨_, rfl, hwrite (.portCounter p counter) v⟩
  | registerWrite offset v => exact ⟨_, rfl, portsSound_hostAccess hs offset (.write v)⟩
  | unusedOffsetAccess offset a => exact ⟨_, rfl, portsSound_hostAccess hs offset a⟩
  | slotTick => exact ⟨_, rfl, hmoves (holdsNoMore_slotTick s)⟩
  | waitTimeout l => exact ⟨_, rfl, hmoves (holdsNoMore_waitTimeout s l)⟩
  | recordLoad words => exact ⟨_, rfl, hmoves (holdsNoMore_recordLoad s _)⟩
  | cellRead => exact ⟨_, rfl, hmoves (holdsNoMore_cellRead s)⟩
  | wordStep part => exact ⟨_, rfl, portsSound_unlessReset hs (portsSound_wordStep hs part)⟩
  | beatEnd => exact ⟨_, rfl, hmoves (holdsNoMore_beatEnd s)⟩
  | lookupStart => exact ⟨_, rfl, hmoves (.of_portSide (lookupStart_portSide s))⟩
  | lookupCompletion => exact ⟨_, rfl, hmoves (.of_portSide (lookupCompletion_portSide s))⟩
  | frameStart p => exact ⟨_, rfl, portsSound_unlessReset hs (portsSound_frameStart hs p)⟩
  | frameEnd p sdi => exact ⟨_, rfl, portsSound_unlessReset hs (portsSound_frameEnd hs p sdi)⟩
  | sckPeriod p sdi => exact ⟨_, rfl, portsSound_unlessReset hs (portsSound_sckPeriod hs p sdi)⟩

/-- Settles O59: words come and go by the word steps, the frames and the disables, each of which keeps the ports sound; every
other command leaves the ports, and the beat it leaves holds no new word. -/
theorem portsStaySound : Obligations.PortsStaySound := by
  intro s t hs h
  unfold step at h
  split at h
  · next c rest _ =>
    obtain ⟨u, hu, hkept⟩ := portsSound_exec (s := { s with pending := rest }) hs c
    exact Host.Outcome.next.inj (hu.symm.trans h) ▸ hkept
  · exact Host.Outcome.next.inj h ▸ portsSound_unlessReset hs ((holdsNoMore_timebaseTick s).portsSound hs)

end Sys2Proof.Machine
end

section
/-! SUPPORT. The faults of a disable in full: every lane whose port wait names the direction, and what is left as it is (R41,
R152). -/

namespace Sys2Proof.Machine

/-! ### A lane that waits for a port -/

/-- A lane on which a fault of its port wait is taken at once: its cursors are tidy, and it is BLOCKED or HALTED while it waits
for a port (R23, R35). -/
structure Lane.Faultable (x : Lane) : Prop where
  tidy : x.tidy
  stalled : x.portWait.isSome = true → x.state = .blocked ∨ x.state = .halted

/-- PORT is a block reason or a held reason of a lane that waits for a port (R23). -/
theorem Lane.stalled_of_portWait {x : Lane} (h : x.consistent) (hwait : x.portWait.isSome = true) :
    x.state = .blocked ∨ x.state = .halted := by
  obtain ⟨-, hreasons, -, hresume, -, hport, -, -, -⟩ := h
  rcases hport.mp hwait with hblocked | hheld
  · exact .inl (hreasons.mp fun e => by simp [e] at hblocked)
  · refine .inr (hresume.mp ?_)
    cases e : x.resume with
    | none => simp [e, Resume.held] at hheld
    | some r => rfl

theorem State.faultable {s : State} (hcontexts : s.lanesConsistent) (hlookups : s.lookupsSound) (l : LaneId) :
    (s.lane l).Faultable := ⟨hlookups.tidy l, Lane.stalled_of_portWait (hcontexts.1 l)⟩

/-- A lane after a disable of a direction: faulted PORT_OFF if its port wait names the direction (R152). -/
def Lane.switchedOff (x : Lane) (w : PortWait) (role : Role) : Lane :=
  if x.portWait = some w then x.faultedWith (asyncRecord x .portOff role) else x

/-- The fault of one lane by a disable of a direction, if its port wait names it (R152). -/
def faultWaiter (w : PortWait) (role : Role) (s : State) (l : LaneId) : State :=
  if (s.lane l).portWait = some w then asyncFault s l .portOff role else s

theorem faultWaiters_eq_foldl (s : State) (p : PortId) (dir : Direction) (role : Role) :
    faultWaiters s p dir role = allLanes.foldl (faultWaiter ⟨p, dir⟩ role) s := rfl

theorem leaves_faultWaiter {s : State} {l : LaneId} (h : (s.lane l).Faultable) (w : PortWait) (role : Role) :
    Leaves l ((s.lane l).switchedOff w role) (if (s.lane l).portWait = some w then 0x02 else 0) s
      (faultWaiter w role s l) := by
  unfold Lane.switchedOff faultWaiter
  split
  · next hwait =>
    have hstalled := h.stalled (hwait ▸ rfl)
    have hawake : (s.lane l).state.atRest = false := by rcases hstalled with e | e <;> rw [e] <;> rfl
    have hidle : (s.lane l).state ≠ .active := by rcases hstalled with e | e <;> rw [e] <;> simp
    rw [asyncFault_now hawake fun hactive => absurd hactive hidle]
    exact leaves_enterFaulted rfl h.tidy _
  · exact .refl l s

/-! ### Every lane in turn -/

/-- The faults of a list of lanes: each is faulted by itself, and INT LANE_FAULT is set if there is one (R41, R152). -/
theorem foldl_faultWaiter (w : PortWait) (role : Role) : ∀ {ls : List LaneId} {s : State}, ls.Nodup →
    (∀ l ∈ ls, (s.lane l).Faultable) →
    let t := ls.foldl (faultWaiter w role) s
    (∀ k, t.lane k = if k ∈ ls then (s.lane k).switchedOff w role else s.lane k) ∧
      t.ints = s.ints.setting (if ∃ l ∈ ls, (s.lane l).portWait = some w then 0x02 else 0)
  | [], s, _, _ => ⟨fun k => by simp, by simp⟩
  | l :: ls, s, hnodup, hready => by
    obtain ⟨hl, hls⟩ := List.nodup_cons.mp hnodup
    have hfirst := leaves_faultWaiter (hready l List.mem_cons_self) w role
    have hothers : ∀ k ∈ ls, (faultWaiter w role s l).lane k = s.lane k :=
      fun k hk => hfirst.others k fun e => hl (e ▸ hk)
    obtain ⟨hlane, hints⟩ := foldl_faultWaiter w role hls
      fun k hk => hothers k hk ▸ hready k (List.mem_cons_of_mem l hk)
    refine ⟨fun k => ?_, ?_⟩
    · rw [List.foldl_cons, hlane]
      by_cases e : k = l
      · subst e
        rw [if_neg hl, hfirst.lane, if_pos List.mem_cons_self]
      · rw [hfirst.others k e]
        simp [e]
    · have hlater : (∃ k ∈ ls, ((faultWaiter w role s l).lane k).portWait = some w) ↔
          ∃ k ∈ ls, (s.lane k).portWait = some w :=
        exists_congr fun k => and_congr_right fun hk => by rw [hothers k hk]
      rw [List.foldl_cons, hints, hfirst.ints, Interrupts.setting_setting]
      simp only [hlater, List.mem_cons, or_and_right, exists_or, exists_eq_left, ite_or_bits]

theorem asyncFault_window (s : State) (l : LaneId) (cause : FaultCause) (role : Role) :
    (asyncFault s l cause role).window = s.window := by
  unfold asyncFault
  dsimp only
  split
  · split
    · rfl
    · exact enterFaulted_window s l _
  · exact enterFaulted_window s l _
  · exact enterFaulted_window s l _
  · exact enterFaulted_window s l _
  · rfl

theorem faultWaiters_frame (s : State) (p : PortId) (dir : Direction) (role : Role) :
    faultWaiters s p dir role = { s with
      lanes := (faultWaiters s p dir role).lanes, map := (faultWaiters s p dir role).map
      ints := (faultWaiters s p dir role).ints } := by
  refine List.foldlRecOn (motive := fun t : State => t = { s with lanes := t.lanes, map := t.map, ints := t.ints }) allLanes _
    rfl fun t ht l _ => ?_
  split
  · have hfault := (onlyLane_asyncFault t l .portOff role).frame
    rw [asyncFault_window] at hfault
    rw [hfault, ht]
  · exact ht

/-- What the faults of a disable make of the lanes, and what they leave as it is (R41, R152). -/
structure WaitersFaulted (s t : State) (w : PortWait) (role : Role) : Prop where
  lane : ∀ l, t.lane l = (s.lane l).switchedOff w role
  ints : t.ints = if ∃ l, (s.lane l).portWait = some w then s.ints.setting 0x02 else s.ints
  entries : t.map.entries = s.map.entries
  frame : t = { s with lanes := t.lanes, map := t.map, ints := t.ints }

theorem waitersFaulted {s : State} (h : ∀ l, (s.lane l).Faultable) (p : PortId) (dir : Direction) (role : Role) :
    WaitersFaulted s (faultWaiters s p dir role) ⟨p, dir⟩ role := by
  obtain ⟨hlane, hints⟩ := foldl_faultWaiter ⟨p, dir⟩ role (ls := allLanes) (by decide) fun l _ => h l
  rw [← faultWaiters_eq_foldl] at hlane hints
  refine ⟨fun l => (hlane l).trans (if_pos (mem_allLanes l)), hints.trans ?_, (onlyLanes_faultWaiters s p dir role).entries,
    faultWaiters_frame s p dir role⟩
  simp only [mem_allLanes, true_and]
  split
  · rfl
  · exact Interrupts.setting_zero _

end Sys2Proof.Machine
end

section
/-! CERTIFICATE. Writes of a port's configuration, idle word, status and counters (R149, R151, R152, R157, R164; log 15, log 32);
O25, O26. -/

namespace Sys2Proof.Machine

/-! ### Writes of PORT_CONFIG -/

section
variable {s : State} (hpin : s.resetPin = false) (p : PortId) (v : Half)
include hpin

theorem exec_portRxEnable : exec (.portRxEnable p v) s = .next (writePortConfig s p (v ||| 1)) :=
  congrArg Host.Outcome.next (unlessReset_run hpin _)

theorem exec_portTxEnable : exec (.portTxEnable p v) s = .next (writePortConfig s p (v ||| 2)) :=
  congrArg Host.Outcome.next (unlessReset_run hpin _)

theorem exec_portRxDisable : exec (.portRxDisable p v) s = .next (writePortConfig s p (v &&& 0xFFFE)) :=
  congrArg Host.Outcome.next (unlessReset_run hpin _)

end

section
variable {s : State} {p : PortId} {v : Half}

theorem State.clearRx_kept (h : (s.port p).rxEnable = true → v.getLsbD 0 = true) : s.clearRx p v = s := by
  refine if_neg fun hclears => ?_
  simp only [Bool.and_eq_true, Bool.not_eq_true'] at hclears
  exact absurd (hclears.2.symm.trans (h hclears.1)) (by decide)

theorem State.clearTx_kept (h : (s.port p).txEnable = true → v.getLsbD 1 = true) : s.clearTx p v = s := by
  refine if_neg fun hclears => ?_
  simp only [Bool.and_eq_true, Bool.not_eq_true'] at hclears
  exact absurd (hclears.2.symm.trans (h hclears.1)) (by decide)

theorem State.clearRx_disables (hon : (s.port p).rxEnable = true) (hclear : v.getLsbD 0 = false) :
    s.clearRx p v = disableRx s p := if_pos (by rw [hon, hclear]; rfl)

theorem State.clearTx_disables (hon : (s.port p).txEnable = true) (hclear : v.getLsbD 1 = false) :
    s.clearTx p v = disableTx s p := if_pos (by rw [hon, hclear]; rfl)

/-- A write that clears no set enable gives the port its fields (R149, R151). -/
theorem writePortConfig_kept (hrx : (s.port p).rxEnable = true → v.getLsbD 0 = true)
    (htx : (s.port p).txEnable = true → v.getLsbD 1 = true) :
    writePortConfig s p v = s.updPort p (·.configured v) := by
  rw [writePortConfig_eq, State.clearRx_kept hrx, State.clearTx_kept htx]

/-- A write that clears a set RX_ENABLE alone (R152). -/
theorem writePortConfig_disablesRx (hon : (s.port p).rxEnable = true) (hclear : v.getLsbD 0 = false)
    (htx : (s.port p).txEnable = true → v.getLsbD 1 = true) :
    writePortConfig s p v = (faultWaiters s p .rx .src).updPort p fun x => x.rxDisabled.configured v := by
  rw [writePortConfig_eq, State.clearTx_kept (by rwa [State.clearRx_txEnable]), State.clearRx_disables hon hclear, disableRx_eq,
    State.updPort_updPort]

/-- A write that clears a set TX_ENABLE alone (R83, R152). -/
theorem writePortConfig_disablesTx (hon : (s.port p).txEnable = true) (hclear : v.getLsbD 1 = false)
    (hrx : (s.port p).rxEnable = true → v.getLsbD 0 = true) :
    writePortConfig s p v =
      (faultWaiters (discardHeld s p) p .tx .dst).updPort p fun x => x.txDisabled.configured v := by
  rw [writePortConfig_eq, State.clearRx_kept hrx, State.clearTx_disables hon hclear, disableTx_eq, State.updPort_updPort]

end

/-! ### The idle word -/

theorem exec_portIdleWordCommit {s : State} (hpin : s.resetPin = false) (p : PortId) (v : Half) :
    exec (.portIdleWordCommit p v) s = .next (splitHighWrite s (.idleWord p) v) :=
  congrArg Host.Outcome.next (unlessReset_run hpin _)

/-- A port with another idle word (R164). -/
def Port.withIdleWord (x : Port) (w : Word) : Port := { x with idleWord := w }

/-! A write of the high half of an idle word, by what the latch names (R149, R164). -/

theorem splitHighWrite_idleWord_taken {s : State} {p : PortId} {low : Half} (h : latchedLow s (.idleWord p) = some low)
    (v : Half) : splitHighWrite s (.idleWord p) v =
      { s.updPort p (·.withIdleWord (v ++ low)) with window := { s.window with writeLatch := none } } := by
  simp [Port.withIdleWord, splitHighWrite, item32ReadOnly, refusedClearing, item32IsAperture, h, commitItem, Word.ofHalves]

theorem splitHighWrite_idleWord_unlatched {s : State} {p : PortId} (h : latchedLow s (.idleWord p) = none) (v : Half) :
    splitHighWrite s (.idleWord p) v = s.refuse .splitOrder (item32Offset (.idleWord p) .high) := by
  simp [splitHighWrite, item32ReadOnly, refusedClearing, item32IsAperture, h]

theorem latchedLow_named {s : State} {item : Item32} {low : Half} (h : s.window.writeLatch = some ⟨low, item32Tag s item⟩) :
    latchedLow s item = some low := by
  simp [latchedLow, h]

theorem latchedLow_other {s : State} {item : Item32} (h : ∀ k, s.window.writeLatch = some k → k.tag ≠ item32Tag s item) :
    latchedLow s item = none := by
  unfold latchedLow
  split
  · next k hk => exact if_neg (h k hk)
  · rfl

/-! ### Status and counters -/

theorem exec_portStatusWrite {s : State} (hpin : s.resetPin = false) (p : PortId) (v : Half) :
    exec (.portStatusWrite p v) s = .next (writePortStatus s p v) := congrArg Host.Outcome.next (unlessReset_run hpin _)

theorem exec_portCounterWrite {s : State} (hpin : s.resetPin = false) (p : PortId) (c : PortCounter) (v : Half) :
    exec (.portCounterWrite p c v) s = .next (writePortCounter s p c) :=
  congrArg Host.Outcome.next (unlessReset_run hpin _)

/-- A write of a counter clears that counter (R157). -/
theorem writePortCounter_port (s : State) (p : PortId) (c : PortCounter) : (writePortCounter s p c).port p =
    { s.port p with
      overruns := if c = .overruns then 0 else (s.port p).overruns
      underruns := if c = .underruns then 0 else (s.port p).underruns
      frameErrors := if c = .frameErrors then 0 else (s.port p).frameErrors } := by
  rw [writePortCounter, State.port_updPort_same]
  cases c <;> rfl

/-- Settles O25: each write is one update of the port, the commit of the idle word with the latch emptied. -/
theorem portWritesThatDisableNothing : Obligations.PortWritesThatDisableNothing := by
  intro s p v hpin
  refine ⟨fun htx => ?rx, fun hrx => ?tx, fun low hlatch => ?idle, fun hlatch => ?order, ?status, fun c => ?counter⟩
  case rx =>
    have hwrite := writePortConfig_kept (v := v ||| 1) (fun _ => by simp) fun hon => by simpa using htx hon
    have hport := State.port_updPort_same s p (·.configured (v ||| 1))
    exact ⟨_, (exec_portRxEnable hpin p v).trans (congrArg _ hwrite), hport, hport ▸ (by simp [Port.configured]),
      updPort_keeps s p _⟩
  case tx =>
    have hwrite := writePortConfig_kept (v := v ||| 2) (fun hon => by simpa using hrx hon) fun _ => by simp
    have hport := State.port_updPort_same s p (·.configured (v ||| 2))
    exact ⟨_, (exec_portTxEnable hpin p v).trans (congrArg _ hwrite), hport, hport ▸ (by simp [Port.configured]),
      updPort_keeps s p _⟩
  case idle =>
    have hwrite := splitHighWrite_idleWord_taken (latchedLow_named (item := .idleWord p) hlatch) v
    exact ⟨_, (exec_portIdleWordCommit hpin p v).trans (congrArg _ hwrite),
      State.port_updPort_same s p (·.withIdleWord (v ++ low)), (updPort_keeps s p (·.withIdleWord (v ++ low))).1, rfl⟩
  case order => rw [exec_portIdleWordCommit hpin, splitHighWrite_idleWord_unlatched (latchedLow_other hlatch)]
  case status => exact ⟨_, exec_portStatusWrite hpin p v, State.port_updPort_same s p _, updPort_keeps s p _⟩
  case counter => exact ⟨_, exec_portCounterWrite hpin p c v, writePortCounter_port s p c, updPort_keeps s p _⟩

/-! ### Disables -/

/-- A write that disables a direction of a port leaves the other ports, and else what the faults leave (R152). -/
theorem WaitersFaulted.updPort {s t : State} {w : PortWait} {role : Role} (h : WaitersFaulted s t w role) (p : PortId)
    (f : Port → Port) : (t.updPort p f).port p = f (s.port p) ∧ OtherPortsKept s (t.updPort p f) p ∧
      t.updPort p f = { s with
        lanes := t.lanes, ports := (t.updPort p f).ports, map := t.map, ints := t.ints } := by
  have hports : t.ports = s.ports := by rw [h.frame]
  refine ⟨?_, fun q hq => ?_, ?_⟩
  · rw [State.port_updPort_same, State.port_congr hports]
  · rw [State.port_updPort_other _ _ hq, State.port_congr hports]
  · calc t.updPort p f = { t with ports := (t.updPort p f).ports } := rfl
      _ = _ := by rw [h.frame]

/-- A mask that clears one bit leaves a word in which that bit is clear. -/
theorem and_not_twoPow_of_clear {v : Half} {n : Nat} (h : v.getLsbD n = false) : v &&& ~~~BitVec.twoPow 16 n = v := by
  refine BitVec.eq_of_getLsbD_eq fun i hi => ?_
  by_cases e : i = n
  · rw [e, BitVec.getLsbD_and, h, Bool.false_and]
  · simp [hi]
    exact fun _ => e

theorem State.clearRx_congr {v w : Half} (h : v.getLsbD 0 = w.getLsbD 0) (s : State) (p : PortId) :
    s.clearRx p v = s.clearRx p w := by
  unfold State.clearRx
  rw [h]

theorem State.clearRx_resetPin (s : State) (p : PortId) (v : Half) : (s.clearRx p v).resetPin = s.resetPin := by
  unfold State.clearRx
  split
  · have hpin := (onlyLanes_faultWaiters s p .rx .src).resetPin
    rw [disableRx_eq]
    generalize faultWaiters s p .rx .src = t at hpin ⊢
    exact hpin
  · rfl

/-- A write that clears both enables is the write that clears RX_ENABLE alone followed by that which clears TX_ENABLE too (R152,
log 15). -/
theorem writePortConfig_disablesBoth {s : State} {p : PortId} {first v : Half} (hfirst : first.getLsbD 0 = false)
    (hkept : first.getLsbD 1 = true) (hrx : v.getLsbD 0 = false) (htx : v.getLsbD 1 = false)
    (hon : (s.port p).txEnable = true) :
    (writePortConfig s p first).resetPin = s.resetPin ∧
      writePortConfig s p v = writePortConfig (writePortConfig s p first) p v := by
  have honAfter : ((s.clearRx p first).port p).txEnable = true := (State.clearRx_txEnable s p first).trans hon
  have hwrite : writePortConfig s p first = (s.clearRx p first).updPort p (·.configured first) := by
    rw [writePortConfig_eq, State.clearTx_kept fun _ => hkept]
  have hpin := State.clearRx_resetPin s p first
  rw [hwrite, writePortConfig_eq s, State.clearRx_congr (hrx.trans hfirst.symm)]
  generalize s.clearRx p first = u at honAfter hpin
  have hport := State.port_updPort_same u p (·.configured first)
  have hoff : ((u.updPort p (·.configured first)).port p).rxEnable = false := by rw [hport]; exact hfirst
  have honFirst : ((u.updPort p (·.configured first)).port p).txEnable = true := by rw [hport]; exact hkept
  refine ⟨hpin, ?_⟩
  rw [writePortConfig_eq, State.clearRx_kept fun e => absurd (hoff.symm.trans e) (by decide),
    State.clearTx_disables honAfter htx, State.clearTx_disables honFirst htx, disableTx_configured, State.updPort_updPort]
  rfl

/-- Settles O26: a disable is the faults of its waiters and one update of the port; the forms of a write with the same bits are
the same write. -/
theorem portDisablesEmptyAndFault : Obligations.PortDisablesEmptyAndFault := by
  intro s p v hpin hcontexts hlookups
  have hready := State.faultable hcontexts hlookups
  have clearRx {w : Half} (h : w.getLsbD 0 = false) : w &&& 0xFFFE = w := and_not_twoPow_of_clear h
  have clearTx {w : Half} (h : w.getLsbD 1 = false) : w &&& 0xFFFD = w := and_not_twoPow_of_clear h
  refine ⟨fun htx => ⟨fun hon => ?rx, fun hoff => ?rxOff⟩, fun hrx => ⟨fun hon => ?tx, fun hoff => ?txOff⟩,
    fun hclear hon => ?both, fun hclear => ?txAsRx, fun hclear => ?rxAsTx, fun hclear => ?enableAsRx⟩
  case rx =>
    have hfaulted := waitersFaulted hready p .rx .src
    have hexec := exec_portRxDisable hpin p v
    rw [writePortConfig_disablesRx hon (by simp) fun hon => by simpa using htx hon] at hexec
    generalize faultWaiters s p .rx .src = t at hfaulted hexec
    obtain ⟨hport, hothers, hframe⟩ := hfaulted.updPort p fun x => x.rxDisabled.configured (v &&& 0xFFFE)
    exact ⟨_, hexec, hport, hothers, hfaulted.lane, hfaulted.ints, hfaulted.entries, hframe⟩
  case rxOff =>
    have hwrite := writePortConfig_kept (v := v &&& 0xFFFE) (fun hon => absurd (hoff.symm.trans hon) (by decide))
      fun hon => by simpa using htx hon
    exact ⟨_, (exec_portRxDisable hpin p v).trans (congrArg _ hwrite), State.port_updPort_same s p _, updPort_keeps s p _⟩
  case tx =>
    have hfaulted := waitersFaulted (s := discardHeld s p) (fun l => by rw [discardHeld_eq]; exact hready l) p .tx .dst
    have hexec := exec_portTxDisable hpin p v
    rw [writePortConfig_disablesTx hon (by simp) fun hon => by simpa using hrx hon] at hexec
    generalize faultWaiters (discardHeld s p) p .tx .dst = t at hfaulted hexec
    obtain ⟨hport, hothers, hframe⟩ := hfaulted.updPort p fun x => x.txDisabled.configured (v &&& 0xFFFD)
    have hbeat : t.beat = s.beat.map (·.discarding p) := by rw [hfaulted.frame, discardHeld_eq]
    have hentries := hfaulted.entries
    have hlane := hfaulted.lane
    have hints := hfaulted.ints
    rw [discardHeld_eq] at hport hothers hframe hentries hlane hints
    dsimp only at hframe
    rw [← hbeat] at hframe
    exact ⟨_, hexec, hport, hothers, hlane, hints, hbeat, hentries, hframe⟩
  case txOff =>
    have hwrite := writePortConfig_kept (v := v &&& 0xFFFD) (fun hon => by simpa using hrx hon)
      fun hon => absurd (hoff.symm.trans hon) (by decide)
    exact ⟨_, (exec_portTxDisable hpin p v).trans (congrArg _ hwrite), State.port_updPort_same s p _, updPort_keeps s p _⟩
  case both =>
    have hcleared : (v &&& 0xFFFE).getLsbD 1 = false := by simpa using hclear
    obtain ⟨hkept, hboth⟩ := writePortConfig_disablesBoth (first := (v ||| 2) &&& 0xFFFE) (v := v &&& 0xFFFE) (by simp)
      (by simp) (by simp) hcleared hon
    refine ⟨_, exec_portRxDisable hpin p (v ||| 2), ?_⟩
    beta_reduce
    rw [exec_portRxDisable hpin, exec_portTxDisable (hkept.trans hpin), clearTx hcleared, hboth]
  case txAsRx =>
    rw [exec_portTxDisable hpin, exec_portRxDisable hpin, clearRx (w := v &&& 0xFFFD) (by simpa using hclear)]
  case rxAsTx =>
    rw [exec_portRxEnable hpin, exec_portTxDisable hpin, clearTx (w := v ||| 1) (by simpa using hclear)]
  case enableAsRx =>
    rw [exec_portTxEnable hpin, exec_portRxDisable hpin, clearRx (w := v ||| 2) (by simpa using hclear)]

end Sys2Proof.Machine
end

section
/-! SUPPORT. Events at a port: its update with interrupt bits, the set of its signal, and the release of the lanes that wait for
a direction (R154, R155, R156). -/

namespace Sys2Proof.Machine

/-! ### An update of a port with interrupt bits -/

/-- The state with one port updated, and with the bits of a mask set in INT_STATUS. -/
def State.atPort (s : State) (p : PortId) (f : Port → Port) (mask : BitVec 8) : State :=
  s.withPorts (s.updPort p f).ports mask

section
variable (s : State) (p : PortId) (f g : Port → Port) (mask : BitVec 8)

theorem State.updPort_eq_atPort : s.updPort p f = s.atPort p f 0 := s.updPort_eq_withPorts p f

@[simp] theorem State.atPort_port : (s.atPort p f mask).port p = f (s.port p) := State.port_updPort_same s p f

@[simp] theorem State.atPort_updPort : (s.atPort p f mask).updPort p g = s.atPort p (fun x => g (f x)) mask :=
  congrArg (fun t : State => s.withPorts t.ports mask) (State.updPort_updPort s p f g)

@[simp] theorem State.atPort_setInt : (s.atPort p f mask).setInt .port = s.atPort p f (mask ||| 0x08) := by
  have hbit : BitVec.twoPow 8 IntBit.port.index = 0x08 := by decide
  simp only [State.atPort, State.withPorts, State.setInt, Interrupts.setting, hbit, BitVec.or_assoc]

variable {s p f} in
theorem State.updPort_fixed (h : f (s.port p) = s.port p) : s.updPort p f = s := by
  have hports : (s.updPort p f).ports = s.ports := State.ports_ext fun q => by
    rw [State.port_updPort]
    split
    · next e => rw [h, e]
    · rfl
  calc s.updPort p f = { s with ports := (s.updPort p f).ports } := rfl
    _ = s := by rw [hports]

theorem State.atPort_others : OtherPortsKept s (s.atPort p f mask) p := fun _ hq => State.port_updPort_other s f hq

theorem State.atPort_frame :
    s.atPort p f mask = { s with ports := (s.atPort p f mask).ports, ints := s.ints.setting mask } := rfl

end

/-! ### The release of lanes -/

theorem releaseLanes_step (s : State) (l : LaneId) (w : PortWait) :
    (if (s.lane l).portWait = some w then
        removeReason (s.updLane l fun x => { x with portWait := none }) l fun h => { h with port := false }
      else s) = s.setLane l ((s.lane l).releasedBy w) := by
  unfold Lane.releasedBy
  split
  · rw [removeReason_eq, State.updLane, State.lane_setLane, if_pos rfl, State.setLane_setLane]
  · exact (State.setLane_self s l).symm

/-- The release, lane by lane (R156). -/
theorem releaseLanes_eq_foldl (s : State) (p : PortId) (dir : Direction) :
    releaseLanes s p dir = allLanes.foldl (fun t l => t.setLane l ((t.lane l).releasedBy ⟨p, dir⟩)) s := by
  unfold releaseLanes
  simp only [releaseLanes_step]

theorem releaseLanes_lane (s : State) (p : PortId) (dir : Direction) (l : LaneId) :
    (releaseLanes s p dir).lane l = (s.lane l).releasedBy ⟨p, dir⟩ := by
  rw [releaseLanes_eq_foldl, foldl_setLane_lane (·.releasedBy ⟨p, dir⟩) l allLanes s (by decide), if_pos (mem_allLanes l)]

theorem releaseLanes_frame (s : State) (p : PortId) (dir : Direction) :
    releaseLanes s p dir = { s with lanes := (releaseLanes s p dir).lanes } := by
  rw [releaseLanes_eq_foldl]
  exact List.foldlRecOn (motive := fun t : State => t = { s with lanes := t.lanes }) allLanes _ rfl
    fun t ht l _ => congrArg (fun u : State => u.setLane l ((t.lane l).releasedBy ⟨p, dir⟩)) ht

/-! ### A served direction -/

/-- A signal set if a condition holds. -/
def State.signalledIf (s : State) (set : Bool) (n : SignalId) : State := if set then setSignal s n else s

theorem afterSignals_iff {s : State} (hpin : s.resetPin = false) (set : Bool) (n : SignalId) (post : State → Prop) :
    AfterSignals set (BitVec.twoPow 16 n.val) s post ↔ post (s.signalledIf set n) := by
  unfold AfterSignals State.signalledIf
  split
  · simp [Runs, exec_signalSet hpin, setSignals_twoPow]
  · rfl

theorem signalledIf_ports (s : State) (set : Bool) (n : SignalId) : (s.signalledIf set n).ports = s.ports := by
  unfold State.signalledIf
  split
  · exact (onlyLanes_setSignal s n).ports
  · rfl

/-- A signal wakes its waiters alike, whatever the event made of the port (R155). -/
theorem signalledIf_atPort (s : State) (p : PortId) (f : Port → Port) (mask : BitVec 8) (set : Bool) (n : SignalId) :
    (s.atPort p f mask).signalledIf set n = (s.signalledIf set n).atPort p f mask := by
  have hports : ((s.signalledIf set n).updPort p f).ports = (s.updPort p f).ports := by
    simp only [State.updPort, State.port_congr (signalledIf_ports s set n), signalledIf_ports]
  rw [State.atPort, State.atPort, hports]
  unfold State.signalledIf
  split
  · exact setSignal_withPorts s _ mask n
  · rfl

/-- An event that serves a direction: the port is updated, its signal set, and the lanes that wait for the direction released
(R155, R156). -/
structure Served (s v t : State) (p : PortId) (f : Port → Port) (mask : BitVec 8) (dir : Direction) : Prop where
  port : t.port p = f (s.port p)
  others : OtherPortsKept s t p
  lane : ∀ l, t.lane l = (v.lane l).releasedBy ⟨p, dir⟩
  frame : t = { v with ports := t.ports, lanes := t.lanes, ints := v.ints.setting mask }

theorem served (s : State) (p : PortId) (f : Port → Port) (mask : BitVec 8) (set : Bool) (n : SignalId) (dir : Direction) :
    Served s (s.signalledIf set n) (releaseLanes ((s.atPort p f mask).signalledIf set n) p dir) p f mask dir := by
  have hlane := releaseLanes_lane ((s.signalledIf set n).atPort p f mask) p dir
  have hframe := releaseLanes_frame ((s.signalledIf set n).atPort p f mask) p dir
  have hports := signalledIf_ports s set n
  rw [signalledIf_atPort]
  generalize releaseLanes _ p dir = t at hlane hframe
  generalize s.signalledIf set n = v at hlane hframe hports
  have hsame : t.ports = (v.atPort p f mask).ports := by rw [hframe]
  refine ⟨?_, fun q hq => ?_, hlane, ?_⟩
  · rw [State.port_congr hsame, State.atPort_port, State.port_congr hports]
  · rw [State.port_congr hsame, State.atPort_others v p f mask q hq, State.port_congr hports]
  · exact hframe.trans (by rw [hsame]; rfl)

end Sys2Proof.Machine
end

section
/-! CERTIFICATE. Frame starts, SCK periods and frame ends (R144 to R147, R154 to R156; log 2, log 21, log 22); O50, O51. -/

namespace Sys2Proof.Machine

/-! ### Frame starts -/

theorem exec_frameStart {s : State} (hpin : s.resetPin = false) (p : PortId) :
    exec (.frameStart p) s = .next (frameStart s p) := congrArg Host.Outcome.next (unlessReset_run hpin _)

/-- The interrupt bits that an FS strobe sets by the frame error it makes: PORT if it breaks a frame that counts (R147). -/
def Port.strobeInts (x : Port) : BitVec 8 := if x.broken then 0x08 else 0

theorem Port.strobeInts_setting (x : Port) (i : Interrupts) :
    i.setting x.strobeInts = if x.broken then i.setting 0x08 else i := by
  unfold Port.strobeInts
  split
  · rfl
  · exact Interrupts.setting_zero i

/-- A port whose frame error is counted if an FS strobe makes one (R147). -/
def Port.errorCounted (x : Port) : Port :=
  { x with
    frameErrors := if x.broken then satInc x.frameErrors else x.frameErrors
    frameErrorFlag := x.frameErrorFlag || x.broken }

theorem frameError_of_strobe (s : State) (p : PortId) :
    (if (s.port p).inFrame then frameError s p else s) = s.atPort p Port.errorCounted (s.port p).strobeInts := by
  cases hbroken : (s.port p).broken with
  | true =>
    obtain ⟨hframe, henabled⟩ := Bool.and_eq_true_iff.mp hbroken
    have hcounted : (fun x : Port => { x with frameErrors := satInc x.frameErrors, frameErrorFlag := true }) (s.port p) =
        (s.port p).errorCounted := by simp [Port.errorCounted, hbroken]
    rw [if_pos hframe, frameError, if_pos henabled, Port.strobeInts, if_pos hbroken, State.updPort_congr hcounted,
      State.updPort_eq_atPort, State.atPort_setInt]
    rfl
  | false =>
    have hnone : (if (s.port p).inFrame then frameError s p else s) = s := by
      rcases Bool.and_eq_false_iff.mp hbroken with hbetween | hdisabled
      · simp [hbetween]
      · simp [frameError, hdisabled]
    have hfixed : (s.port p).errorCounted = s.port p := by simp [Port.errorCounted, hbroken]
    rw [hnone, Port.strobeInts, hbroken]
    exact (State.updPort_fixed hfixed).symm.trans (State.updPort_eq_atPort s p _)

/-- A frame start strobes the port before its transmit direction is served (R145, R147). -/
theorem frameStart_eq (s : State) (p : PortId) :
    frameStart s p = frameStartTransmit (s.atPort p Port.strobed (s.port p).strobeInts) p := by
  rw [frameStart, frameError_of_strobe, State.atPort_updPort]
  rfl

section
variable {s : State} {p : PortId}

theorem frameStartTransmit_off (hoff : (s.port p).txEnable = false) :
    frameStartTransmit s p = s.updPort p fun x => { x with shiftWord := 0 } :=
  if_pos (by rw [hoff]; rfl)

/-- With no word to send, the idle word is sent and an underrun counted (R145). -/
theorem frameStartTransmit_empty (hon : (s.port p).txEnable = true) (hempty : (s.port p).txFifo = []) :
    frameStartTransmit s p = (s.updPort p fun x =>
      { x with shiftWord := x.idleWord, underruns := satInc x.underruns, underrunFlag := true }).setInt .port := by
  simp [frameStartTransmit, hon, hempty]

/-- With words to send, the oldest is popped (R145, R155, R156). -/
theorem frameStartTransmit_pops (hon : (s.port p).txEnable = true) {w : Word} {rest : List Word}
    (hfifo : (s.port p).txFifo = w :: rest) :
    frameStartTransmit s p = releaseLanes ((s.updPort p fun x => { x with txFifo := rest, shiftWord := w }).signalledIf
      (rest.length = (s.port p).txMark.toNat && (s.port p).txSignalEnable) (signalOfField (s.port p).txSignal)) p .tx := by
  simp only [frameStartTransmit, State.signalledIf, hon, hfifo, Bool.not_true, Bool.false_eq_true, if_false]

theorem frameStart_off (hoff : (s.port p).txEnable = false) :
    frameStart s p = s.atPort p (fun x => { x.strobed with shiftWord := 0 }) (s.port p).strobeInts := by
  rw [frameStart_eq, frameStartTransmit_off (by rw [State.atPort_port]; exact hoff), State.atPort_updPort]

theorem frameStart_empty (hon : (s.port p).txEnable = true) (hempty : (s.port p).txFifo = []) :
    frameStart s p = s.atPort p (fun x => { x.strobed with
      shiftWord := x.idleWord, underruns := satInc x.underruns, underrunFlag := true }) 0x08 := by
  have hints : (s.port p).strobeInts ||| 0x08 = 0x08 := by
    unfold Port.strobeInts
    split <;> rfl
  rw [frameStart_eq, frameStartTransmit_empty (by rw [State.atPort_port]; exact hon) (by rw [State.atPort_port]; exact hempty),
    State.atPort_updPort, State.atPort_setInt, hints]
  rfl

theorem frameStart_pops (hon : (s.port p).txEnable = true) {w : Word} {rest : List Word}
    (hfifo : (s.port p).txFifo = w :: rest) :
    frameStart s p = releaseLanes ((s.atPort p (fun x => { x.strobed with txFifo := rest, shiftWord := w })
        (s.port p).strobeInts).signalledIf (rest.length = (s.port p).txMark.toNat && (s.port p).txSignalEnable)
      (signalOfField (s.port p).txSignal)) p .tx := by
  rw [frameStart_eq, frameStartTransmit_pops (by rw [State.atPort_port]; exact hon) (by rw [State.atPort_port]; exact hfifo),
    State.atPort_updPort, State.atPort_port]
  rfl

end

/-- Settles O50, by what the transmit direction has to send. -/
theorem frameStartPreparesBothDirections : Obligations.FrameStartPreparesBothDirections := by
  intro s p hpin
  have hexec := exec_frameStart hpin p
  refine ⟨fun hoff => ?off, fun hon hempty => ?empty, fun hon w rest hfifo => ?words⟩
  case off =>
    rw [frameStart_off hoff] at hexec
    exact ⟨_, hexec, by simp, by simp [Port.sdo], State.atPort_others s p _ _,
      Port.strobeInts_setting (s.port p) s.ints ▸ State.atPort_frame s p _ _⟩
  case empty =>
    rw [frameStart_empty hon hempty] at hexec
    exact ⟨_, hexec, by simp [Port.strobed], by simp [Port.sdo, Port.strobed], State.atPort_others s p _ _,
      State.atPort_frame s p _ _⟩
  case words =>
    rw [frameStart_pops hon hfifo] at hexec
    have hserved := served s p (fun x => { x.strobed with txFifo := rest, shiftWord := w }) (s.port p).strobeInts
      (rest.length = (s.port p).txMark.toNat && (s.port p).txSignalEnable) (signalOfField (s.port p).txSignal) .tx
    refine (afterSignals_iff hpin _ (signalOfField (s.port p).txSignal) _).mpr ⟨_, hexec, hserved.port, hserved.others, ?_,
      hserved.lane, ?_⟩
    · rw [hserved.port]
      simp [Port.sdo, Port.strobed]
    · rw [← Port.strobeInts_setting]
      exact hserved.frame

/-! ### SCK periods and frame ends -/

section
variable {s : State} (hpin : s.resetPin = false) (p : PortId) (sdi : Bool)
include hpin

theorem exec_sckPeriod : exec (.sckPeriod p sdi) s = .next (sckPeriod s p sdi) :=
  congrArg Host.Outcome.next (unlessReset_run hpin _)

theorem exec_frameEnd : exec (.frameEnd p sdi) s = .next (frameEnd s p sdi) :=
  congrArg Host.Outcome.next (unlessReset_run hpin _)

end

section
variable {s : State} {p : PortId} {sdi : Bool}

theorem sckPeriod_between (h : (s.port p).inFrame = false) : sckPeriod s p sdi = s := by simp [sckPeriod, h]

theorem sckPeriod_before_last (hin : (s.port p).inFrame = true) (hbits : (s.port p).bits < 31) :
    sckPeriod s p sdi = s.updPort p (·.takeBit sdi) := by
  simp [sckPeriod, hin, hbits]

theorem sckPeriod_last (hin : (s.port p).inFrame = true) (hbits : (s.port p).bits = 31) :
    sckPeriod s p sdi = frameEnd s p sdi := by
  simp [sckPeriod, hin, hbits]

theorem frameEnd_between (h : (s.port p).inFrame = false) : frameEnd s p sdi = s := by simp [frameEnd, h]

theorem frameEnd_before_last (h : (s.port p).bits ≠ 31) : frameEnd s p sdi = s := by simp [frameEnd, h]

/-- The frame end closes the frame and offers the word it has completed (R146). -/
theorem frameEnd_last (hin : (s.port p).inFrame = true) (hbits : (s.port p).bits = 31) :
    frameEnd s p sdi = offerReceived (s.updPort p (·.ended sdi)) p ((s.port p).filled sdi) := by
  have hlast : ((s.port p).inFrame && (s.port p).bits == 31) = true := by simp [hin, hbits]
  have hended : s.updPort p (fun x => { x with inFrame := false, bits := 0, received := (s.port p).filled sdi }) =
      s.updPort p (·.ended sdi) := State.updPort_congr rfl
  rw [← hended]
  exact if_pos hlast

theorem offerReceived_discards (hcapture : (s.port p).capture = false) (w : Word) : offerReceived s p w = s :=
  if_pos (by rw [hcapture]; rfl)

theorem offerReceived_overruns (hcapture : (s.port p).capture = true) (hfull : 32 ≤ (s.port p).rxFifo.length) (w : Word) :
    offerReceived s p w =
      (s.updPort p fun x => { x with overruns := satInc x.overruns, overrunFlag := true }).setInt .port := by
  simp [offerReceived, hcapture, Config.fifoWords, hfull]

/-- A received word that finds room is pushed (R146, R154, R156). -/
theorem offerReceived_pushes (hcapture : (s.port p).capture = true) (hroom : (s.port p).rxFifo.length < 32) (w : Word) :
    offerReceived s p w = releaseLanes ((s.updPort p fun x => { x with rxFifo := x.rxFifo ++ [w] }).signalledIf
      ((s.port p).rxFifo.length = (s.port p).rxMarkField.toNat && (s.port p).rxSignalEnable)
      (signalOfField (s.port p).rxSignal)) p .rx := by
  have hlevel : ¬ Config.fifoWords ≤ (s.port p).rxFifo.length := Nat.not_le.mpr hroom
  simp only [offerReceived, State.signalledIf, hcapture, hlevel, Nat.add_right_cancel_iff, Bool.not_true, Bool.false_eq_true,
    if_false]

theorem frameEnd_discards (hin : (s.port p).inFrame = true) (hbits : (s.port p).bits = 31)
    (hcapture : (s.port p).capture = false) : frameEnd s p sdi = s.updPort p (·.ended sdi) := by
  rw [frameEnd_last hin hbits, offerReceived_discards (by rw [State.port_updPort_same]; exact hcapture)]

theorem frameEnd_overruns (hin : (s.port p).inFrame = true) (hbits : (s.port p).bits = 31)
    (hcapture : (s.port p).capture = true) (hfull : 32 ≤ (s.port p).rxFifo.length) :
    frameEnd s p sdi =
      s.atPort p (fun x => { x.ended sdi with overruns := satInc x.overruns, overrunFlag := true }) 0x08 := by
  rw [frameEnd_last hin hbits, offerReceived_overruns (by rw [State.port_updPort_same]; exact hcapture)
    (by rw [State.port_updPort_same]; exact hfull), State.updPort_updPort, State.updPort_eq_atPort, State.atPort_setInt]
  rfl

theorem frameEnd_pushes (hin : (s.port p).inFrame = true) (hbits : (s.port p).bits = 31)
    (hcapture : (s.port p).capture = true) (hroom : (s.port p).rxFifo.length < 32) :
    frameEnd s p sdi = releaseLanes ((s.atPort p (fun x => { x.ended sdi with
        rxFifo := x.rxFifo ++ [x.filled sdi] }) 0).signalledIf
      ((s.port p).rxFifo.length = (s.port p).rxMarkField.toNat && (s.port p).rxSignalEnable)
      (signalOfField (s.port p).rxSignal)) p .rx := by
  have hpushed : s.updPort p (fun x => { x.ended sdi with rxFifo := (x.ended sdi).rxFifo ++ [(s.port p).filled sdi] }) =
      s.atPort p (fun x => { x.ended sdi with rxFifo := x.rxFifo ++ [x.filled sdi] }) 0 :=
    (State.updPort_congr rfl).trans (State.updPort_eq_atPort s p _)
  rw [frameEnd_last hin hbits, offerReceived_pushes (by rw [State.port_updPort_same]; exact hcapture)
    (by rw [State.port_updPort_same]; exact hroom), State.updPort_updPort, State.port_updPort_same, hpushed]
  rfl

end

/-- Settles O51, by the place of the SCK period in its frame and, at the frame end, by what becomes of the word. -/
theorem frameEndOffersTheReceivedWord : Obligations.FrameEndOffersTheReceivedWord := by
  intro s p sdi hpin
  have hend := exec_frameEnd hpin p sdi
  have hperiod := exec_sckPeriod hpin p sdi
  refine ⟨fun hin => ?sends, fun hout => ?between, fun hbits => ?tooEarly, fun hin hbits => ?takes, fun hin hlast =>
    ⟨?same, fun hcapture => ?discards, fun hcapture hfull => ?overruns, fun hcapture hroom => ?pushes⟩⟩
  case sends => simp [Port.sdo, hin]
  case between =>
    exact ⟨by simp [Port.sdo, hout], hperiod.trans (congrArg _ (sckPeriod_between hout)),
      hend.trans (congrArg _ (frameEnd_between hout))⟩
  case tooEarly => exact hend.trans (congrArg _ (frameEnd_before_last hbits))
  case takes =>
    have hport := State.port_updPort_same s p (·.takeBit sdi)
    have hsdo : ((s.port p).takeBit sdi).sdo = (s.port p).shiftWord.getLsbD (30 - (s.port p).bits) := by
      simp only [Port.sdo, Port.takeBit, hin, Bool.true_and]
      congr 1
      omega
    exact ⟨_, hperiod.trans (congrArg _ (sckPeriod_before_last hin hbits)), hport, hport ▸ hsdo, updPort_keeps s p _⟩
  case same => rw [hperiod, hend, sckPeriod_last hin hlast]
  case discards =>
    rw [frameEnd_discards hin hlast hcapture] at hend
    have hport := State.port_updPort_same s p (·.ended sdi)
    exact ⟨_, hend, hport, hport ▸ rfl, updPort_keeps s p _⟩
  case overruns =>
    rw [frameEnd_overruns hin hlast hcapture hfull] at hend
    exact ⟨_, hend, by simp [Port.ended], by simp [Port.sdo, Port.ended], State.atPort_others s p _ _,
      State.atPort_frame s p _ _⟩
  case pushes =>
    rw [frameEnd_pushes hin hlast hcapture hroom] at hend
    have hserved := served s p (fun x => { x.ended sdi with rxFifo := x.rxFifo ++ [x.filled sdi] }) 0
      ((s.port p).rxFifo.length = (s.port p).rxMarkField.toNat && (s.port p).rxSignalEnable)
      (signalOfField (s.port p).rxSignal) .rx
    refine (afterSignals_iff hpin _ (signalOfField (s.port p).rxSignal) _).mpr ⟨_, hend, hserved.port, ?_, hserved.others,
      hserved.lane, ?_⟩
    · rw [hserved.port]
      rfl
    · have hframe := hserved.frame
      rw [show (0 : BitVec 8) = 0#8 from rfl, Interrupts.setting_zero] at hframe
      exact hframe

end Sys2Proof.Machine
end

section
/-! SUPPORT. What each command does to exchange memory: nearly all leave it, the end of a clear pass clears it, and the word
step and the aperture each write one whole word (R70, R162, R165, R170). -/

namespace Sys2Proof.Machine

/-! ### Operations that leave memory

`f_mem` says that `f` leaves exchange memory as it is. -/

section
variable (s : State)

theorem foldl_mem {α : Type} {f : State → α → State} (hf : ∀ t a, (f t a).mem = t.mem) (as : List α) :
    (as.foldl f s).mem = s.mem :=
  List.foldlRecOn (motive := fun t : State => t.mem = s.mem) as f rfl fun t ht a _ => (hf t a).trans ht

@[simp] theorem setSignal_mem (n : SignalId) : (setSignal s n).mem = s.mem := (onlyLanes_setSignal s n).mem

@[simp] theorem setSignals_mem (mask : Half) : (setSignals s mask).mem = s.mem :=
  foldl_mem s (fun t n => by split <;> simp) allSignals

theorem satisfyWait_mem {mask : Half} {consume : Bool} {t : State} (h : satisfyWait s mask consume = some t) :
    t.mem = s.mem := by
  obtain ⟨signals, rfl⟩ := satisfyWait_signals h
  rfl

/-! Lane commands and writes of lane fields. -/

theorem resumeLane_mem (l : LaneId) : (resumeLane s l).1.mem = s.mem := by
  unfold resumeLane
  split
  · unfold resumeHalted
    dsimp only
    split
    · exact (onlyLane_settle _ l _).mem
    · split
      · next h => rw [(onlyLane_completeWait _ l).mem, satisfyWait_mem _ h, State.updLane_mem]
      · rfl
    · exact (onlyLane_settle _ l _).mem
  · rfl

theorem laneCommandOf_mem (code : BitVec 3) (l : LaneId) : (laneCommandOf code s l).1.mem = s.mem := by
  rcases laneCommandOf_cases code with h | h | h | h | h | h | h <;> rw [h]
  · exact (onlyLane_enableLane s l).mem
  · exact (onlyLane_disableLane s l).mem
  · exact (onlyLane_startLane s l).mem
  · exact (onlyLane_haltLane s l).mem
  · exact resumeLane_mem s l
  · exact (onlyLane_abortLane s l).mem

theorem laneCommand_mem (lane : BitVec 4) (code : BitVec 3) :
    (laneCommand s lane (laneCommandOf code)).mem = s.mem := by
  unfold laneCommand
  split
  · exact laneCommandOf_mem s code _
  · rfl

theorem writeRecordPointer_mem (v : Half) : (writeRecordPointer s v).mem = s.mem := by
  unfold writeRecordPointer
  dsimp only
  split
  · split
    · exact (onlyLane_redirectLane s _ _).mem
    · rfl
  · rfl

theorem writeLaneSelect_mem (v : Half) : (writeLaneSelect s v).mem = s.mem := by
  unfold writeLaneSelect
  split <;> rfl

/-! Global commands, the wheel's items and the completion queue. -/

/-- A global command leaves memory: an ERASE only begins the clear pass, and a soft reset keeps every word (R169, R172). -/
theorem globalCommandOf_mem (code : BitVec 4) : (globalCommandOf code s).1.mem = s.mem := by
  rcases globalCommandOf_cases code with h | h | h | h | h | h <;> rw [h]
  · unfold startWheel
    split
    · rfl
    · split <;> rfl
  · unfold stopWheel
    split <;> rfl
  · unfold rewindWheel
    split <;> rfl
  · rfl
  · unfold eraseMemory
    split
    · rfl
    · split <;> rfl

theorem writeScheduleEntry_mem (t : Table) (e : Fin 32) (v : Half) : (writeScheduleEntry s t e v).mem = s.mem := by
  unfold writeScheduleEntry
  dsimp only
  split
  · rfl
  · split <;> rfl

theorem writeSlotPeriod_mem (v : Half) : (writeSlotPeriod s v).mem = s.mem := by
  unfold writeSlotPeriod
  split <;> rfl

theorem popQueue_mem : (popQueue s).mem = s.mem := by
  unfold popQueue
  split
  · rfl
  · rw [releaseQueue_frame]

/-! The slot tick and the timer. -/

/-- The decision of a slot, the advance and the counts read no word (R58). -/
theorem slotTick_mem : (slotTick s).mem = s.mem := by
  cases hrun : s.wheel.running with
  | false => rw [slotTick_stopped hrun]
  | true => rw [slotTick_running hrun, (countedThrough_countTimeouts _).mem, tickAdvanced_eq, (slotDecided_decideSlot s).rest]

theorem waitTimeout_mem (l : LaneId) : (waitTimeout s l).mem = s.mem := by
  rcases waitTimeout_cases s l with e | e <;> rw [e]
  exact slotTick_mem s

theorem timebaseTick_mem : (timebaseTick s).mem = s.mem := by
  unfold timebaseTick
  split
  · split
    · exact slotTick_mem s
    · rfl
  · rfl

/-! The beat end and the map unit. -/

/-- A beat end makes no word access: the beat has made them all (R70, R72). -/
theorem beatEnd_mem : (beatEnd s).mem = s.mem := by
  cases hb : s.beat with
  | none => simp [beatEnd, hb]
  | some b =>
    cases hover : b.work.over with
    | false => simp [beatEnd, hb, hover]
    | true =>
      have hresults : (s.results b).1.mem = (s.taken b).mem :=
        ((keptByResults_beatFrame b.lane (s.taken b)).beatResult (OnlyLane.refl b.lane _).beatFrame b.work).state.mem
      have htaken : (s.taken b).mem = s.mem := (leaves_taken s b).mem
      rw [beatEnd_over hb hover, (onlyLane_takeDeferred _ b.lane _ _ _).mem]
      exact hresults.trans htaken

theorem lookupStart_mem : (lookupStart s).mem = s.mem := by
  unfold lookupStart
  split <;> rfl

theorem lookupCompletion_mem : (lookupCompletion s).mem = s.mem := by
  cases hk : s.map.lookup with
  | none => simp [lookupCompletion, hk]
  | some k => exact (onlyLane_lookupCompletion s k hk).mem

theorem shootdown_mem (page : BitVec 7) : (shootdown s page).mem = s.mem := by
  unfold shootdown
  rw [foldl_mem _ fun t l => foldl_mem t (fun u r => (onlyLane_shootCursor page u l r).mem) allRoles, staleOnShootdown_eq]
  rfl

/-! Stream ports. -/

theorem signalledIf_mem (set : Bool) (n : SignalId) : (s.signalledIf set n).mem = s.mem := by
  unfold State.signalledIf
  split <;> simp

theorem releaseLanes_mem (p : PortId) (dir : Direction) : (releaseLanes s p dir).mem = s.mem := by
  rw [releaseLanes_frame]

theorem frameStart_mem (p : PortId) : (frameStart s p).mem = s.mem := by
  cases hon : (s.port p).txEnable with
  | false =>
    rw [frameStart_off hon]
    rfl
  | true =>
    cases hfifo : (s.port p).txFifo with
    | nil =>
      rw [frameStart_empty hon hfifo]
      rfl
    | cons w rest =>
      rw [frameStart_pops hon hfifo, releaseLanes_mem, signalledIf_mem]
      rfl

theorem offerReceived_mem (p : PortId) (w : Word) : (offerReceived s p w).mem = s.mem := by
  cases hcapture : (s.port p).capture with
  | false => rw [offerReceived_discards hcapture]
  | true =>
    by_cases hroom : (s.port p).rxFifo.length < 32
    · rw [offerReceived_pushes hcapture hroom, releaseLanes_mem, signalledIf_mem]
      rfl
    · rw [offerReceived_overruns hcapture (Nat.le_of_not_lt hroom)]
      rfl

theorem frameEnd_mem (p : PortId) (sdi : Bool) : (frameEnd s p sdi).mem = s.mem := by
  unfold frameEnd
  dsimp only
  split
  · rw [offerReceived_mem, State.updPort_mem]
  · rfl

theorem sckPeriod_mem (p : PortId) (sdi : Bool) : (sckPeriod s p sdi).mem = s.mem := by
  unfold sckPeriod
  dsimp only
  split
  · rfl
  · split
    · rfl
    · exact frameEnd_mem s p sdi

theorem disableRx_mem (p : PortId) : (disableRx s p).mem = s.mem := by
  rw [disableRx_eq, State.updPort_mem, (onlyLanes_faultWaiters s p .rx .src).mem]

theorem disableTx_mem (p : PortId) : (disableTx s p).mem = s.mem := by
  rw [disableTx_eq, State.updPort_mem, (onlyLanes_faultWaiters _ p .tx .dst).mem, discardHeld_eq]

theorem writePortConfig_mem (p : PortId) (v : Half) : (writePortConfig s p v).mem = s.mem := by
  have hrx : (s.clearRx p v).mem = s.mem := by
    unfold State.clearRx
    split
    · exact disableRx_mem s p
    · rfl
  have htx (t : State) : (t.clearTx p v).mem = t.mem := by
    unfold State.clearTx
    split
    · exact disableTx_mem t p
    · rfl
  rw [writePortConfig_eq, State.updPort_mem, htx, hrx]

/-! Split writes of the low half, and reads. -/

theorem splitLowWrite_mem (item : Item32) (v : Half) : (splitLowWrite s item v).mem = s.mem := by
  unfold splitLowWrite
  split
  · rfl
  · split <;> rfl

theorem readItem_mem (i : Item) : (readItem s i).mem = s.mem := by
  unfold readItem
  split
  · unfold splitLowRead
    split <;> rfl
  · unfold splitHighRead
    split <;> rfl
  · rfl
  · rfl

theorem hostReading_mem (i : Item) : (hostReading s fun s => readItem s i).mem = s.mem := by
  unfold hostReading
  split
  · rfl
  · exact readItem_mem s i

end

/-! ### The edits of memory -/

/-- What one command can make of exchange memory: it leaves it, clears it, or writes one whole word (R70, R165, R170). -/
inductive MemoryEdit (m : List MemCell) : List MemCell → Prop
  | kept : MemoryEdit m m
  | cleared : MemoryEdit m []
  | written (page : BitVec 6) (offset : BitVec 8) (w : Word) : MemoryEdit m (writeWord m (physAddr page offset) w)

theorem MemoryEdit.of_eq {m n : List MemCell} (h : n = m) : MemoryEdit m n := h ▸ .kept

/-- Each edit keeps the canonical form (log 8). -/
theorem MemoryEdit.wf {m n : List MemCell} (h : MemoryEdit m n) (hm : Memory.wf m) : Memory.wf n := by
  cases h with
  | kept => exact hm
  | cleared => exact ⟨.nil, nofun⟩
  | written page offset w => exact writeWord_wf hm w (physAddr_lt page offset)

/-- From `s` to `t` exchange memory has had at most one edit. -/
def State.EditsMemory (s t : State) : Prop := MemoryEdit s.mem t.mem

theorem State.EditsMemory.of_eq {s t : State} (h : t.mem = s.mem) : s.EditsMemory t := MemoryEdit.of_eq h

theorem State.EditsMemory.canonical {s t : State} (h : s.EditsMemory t) (hs : s.memoryCanonical) : t.memoryCanonical :=
  h.wf hs

theorem editsMemory_writeDestination (s : State) (target : Translation) (position : LAddr) (h : HeldWord) :
    s.EditsMemory (writeDestination s target position h) := by
  unfold writeDestination
  split
  · exact .written _ _ _
  · split <;> exact .kept

/-- The write part of a word step writes a word if it goes to a memory page (R83). -/
theorem editsMemory_wordWrite (s : State) : s.EditsMemory (wordWrite s) := by
  unfold wordWrite
  split
  · split
    · exact editsMemory_writeDestination s _ _ _
    · exact .kept
  · exact .kept

theorem editsMemory_wordStep (s : State) (part : WordStepPart) : s.EditsMemory (wordStep s part) := by
  have hread : (wordRead s).mem = s.mem := by rw [wordRead_frame]
  cases part with
  | read => exact .of_eq hread
  | write => exact editsMemory_wordWrite s
  | whole =>
    have hwrite := editsMemory_wordWrite (wordRead s)
    rwa [State.EditsMemory, hread] at hwrite

theorem editsMemory_clearPassEnd (s : State) : s.EditsMemory (clearPassEnd s) := by
  unfold clearPassEnd
  split
  · exact .cleared
  · exact .kept

/-- Of the 32-bit items only an aperture word is a word of memory (R162, R164). -/
theorem editsMemory_commitItem {s t : State} {item : Item32} {w : Word} (h : commitItem s item w = some t) :
    s.EditsMemory t := by
  cases item with
  | mapEntry page =>
    simp only [commitItem, commitMapEntry] at h
    split at h
    · refine .of_eq ?_
      rw [← Option.some.inj h, shootdown_mem]
    · contradiction
  | idleWord p =>
    obtain rfl := Option.some.inj h
    exact .kept
  | aperture a =>
    obtain rfl := Option.some.inj h
    exact .written _ _ _
  | slotCount | beats => contradiction

theorem editsMemory_splitHighWrite (s : State) (item : Item32) (v : Half) : s.EditsMemory (splitHighWrite s item v) := by
  unfold splitHighWrite
  split
  · exact .kept
  · split
    · exact .kept
    · split
      · split
        · next h =>
          have hcommit := editsMemory_commitItem h
          exact hcommit
        · exact .kept
      · exact .kept

/-- A host write of any item edits memory at most by the commit of a 32-bit item (R174). -/
theorem editsMemory_writeItem (s : State) (i : Item) (offset : WindowOffset) (v : Half) :
    s.EditsMemory (writeItem s i offset v) := by
  cases i with
  | globalCommand => exact .of_eq (globalCommandOf_mem s _)
  | queuePop => exact .of_eq (popQueue_mem s)
  | signalSet => exact .of_eq (setSignals_mem s v)
  | laneCommand => exact .of_eq (laneCommand_mem s _ _)
  | recordPointer => exact .of_eq (writeRecordPointer_mem s v)
  | portConfig p => exact .of_eq (writePortConfig_mem s p v)
  | scheduleEntry t e => exact .of_eq (writeScheduleEntry_mem s t e v)
  | slotPeriod => exact .of_eq (writeSlotPeriod_mem s v)
  | laneSelect => exact .of_eq (writeLaneSelect_mem s v)
  | split item half =>
    cases half with
    | low => exact .of_eq (splitLowWrite_mem s item v)
    | high => exact editsMemory_splitHighWrite s item v
  | _ => exact .kept

/-! ### Every command -/

theorem editsMemory_unlessReset {s : State} {f : State → State} (h : s.EditsMemory (f s)) :
    s.EditsMemory (unlessReset s f) := unlessReset_cases .kept fun _ => h

/-- A host access edits memory as the write of its item does; a read leaves it. -/
theorem editsMemory_hostAccess (s : State) (offset : WindowOffset) (a : Access) : s.EditsMemory (hostAccess s offset a) := by
  cases a with
  | read => exact .of_eq (hostReading_mem s _)
  | write v => exact editsMemory_unlessReset (editsMemory_writeItem s (itemAt offset) (alignOffset offset) v)

/-- Every command edits exchange memory at most once. -/
theorem editsMemory_exec (s : State) (c : Instr) : Runs c s s.EditsMemory := by
  have hkept {f : State → State} (h : (f s).mem = s.mem) : s.EditsMemory (unlessReset s f) :=
    editsMemory_unlessReset (.of_eq h)
  have hread (i : Item) : s.EditsMemory (hostReading s fun s => readItem s i) := .of_eq (hostReading_mem s i)
  have hwrite (i : Item) (v : Half) : s.EditsMemory (unlessReset s fun s => writeItem s i 0 v) :=
    editsMemory_unlessReset (editsMemory_writeItem s i 0 v)
  have hlane (lane : BitVec 4) (code : BitVec 3) :
      s.EditsMemory (unlessReset s fun s => laneCommand s lane (laneCommandOf code)) := hkept (laneCommand_mem s lane code)
  have hglobal (code : BitVec 4) : s.EditsMemory (unlessReset s fun s => globalCommand s (globalCommandOf code)) :=
    hkept (globalCommandOf_mem s code)
  cases c with
  | enable lane => exact ⟨_, rfl, hlane lane 1⟩
  | disable lane => exact ⟨_, rfl, hlane lane 2⟩
  | start lane => exact ⟨_, rfl, hlane lane 3⟩
  | halt lane => exact ⟨_, rfl, hlane lane 4⟩
  | resume lane => exact ⟨_, rfl, hlane lane 5⟩
  | abort lane => exact ⟨_, rfl, hlane lane 6⟩
  | laneCommandUnknown lane code => exact ⟨_, rfl, hlane lane code⟩
  | wheelStart => exact ⟨_, rfl, hglobal 1⟩
  | wheelStop => exact ⟨_, rfl, hglobal 2⟩
  | wheelRewind => exact ⟨_, rfl, hglobal 3⟩
  | softReset => exact ⟨_, rfl, hglobal 4⟩
  | erase => exact ⟨_, rfl, hglobal 5⟩
  | globalCommandUnknown code => exact ⟨_, rfl, hglobal code⟩
  | clearPassEnd => exact ⟨_, rfl, editsMemory_unlessReset (editsMemory_clearPassEnd s)⟩
  | resetAssert => exact ⟨_, rfl, .kept⟩
  | resetRelease =>
    refine ⟨_, rfl, .of_eq ?_⟩
    unfold resetRelease
    split <;> rfl
  | recordPointerWrite v => exact ⟨_, rfl, hwrite .recordPointer v⟩
  | laneConfigWrite v => exact ⟨_, rfl, hwrite .laneConfig v⟩
  | laneSelectWrite v => exact ⟨_, rfl, hwrite .laneSelect v⟩
  | recordWordsRead => exact ⟨_, rfl, hread .recordWords⟩
  | scheduleEntryWrite table e v => exact ⟨_, rfl, hwrite (.scheduleEntry table e) v⟩
  | slotPeriodWrite v => exact ⟨_, rfl, hwrite .slotPeriod v⟩
  | tableSelectWrite v => exact ⟨_, rfl, hwrite .tableSelect v⟩
  | splitLowRead item => exact ⟨_, rfl, hread (.split item .low)⟩
  | splitHighRead item => exact ⟨_, rfl, hread (.split item .high)⟩
  | splitLowWrite item v => exact ⟨_, rfl, hwrite (.split item .low) v⟩
  | mapEntryCommit page v => exact ⟨_, rfl, hwrite (.split (.mapEntry page) .high) v⟩
  | apertureWordCommit word v => exact ⟨_, rfl, hwrite (.split (.aperture word) .high) v⟩
  | portIdleWordCommit p v => exact ⟨_, rfl, hwrite (.split (.idleWord p) .high) v⟩
  | aperturePageWrite v => exact ⟨_, rfl, hwrite .aperturePage v⟩
  | signalSet v => exact ⟨_, rfl, hwrite .signalSet v⟩
  | signalClear v => exact ⟨_, rfl, hwrite .signalClear v⟩
  | queuePop v => exact ⟨_, rfl, hwrite .queuePop v⟩
  | queueThresholdWrite v => exact ⟨_, rfl, hwrite .queueThreshold v⟩
  | intStatusWrite v => exact ⟨_, rfl, hwrite .intStatus v⟩
  | intEnableWrite v => exact ⟨_, rfl, hwrite .intEnable v⟩
  | portRxEnable p v | portTxEnable p v | portRxDisable p v | portTxDisable p v =>
    exact ⟨_, rfl, hwrite (.portConfig p) _⟩
  | portStatusWrite p v => exact ⟨_, rfl, hwrite (.portStatus p) v⟩
  | portCounterWrite p counter v => exact ⟨_, rfl, hwrite (.portCounter p counter) v⟩
  | registerWrite offset v => exact ⟨_, rfl, editsMemory_hostAccess s offset (.write v)⟩
  | unusedOffsetAccess offset a => exact ⟨_, rfl, editsMemory_hostAccess s offset a⟩
  | slotTick => exact ⟨_, rfl, hkept (slotTick_mem s)⟩
  | waitTimeout l => exact ⟨_, rfl, hkept (waitTimeout_mem s l)⟩
  | recordLoad words => exact ⟨_, rfl, hkept (by rw [recordLoad_frame])⟩
  | cellRead => exact ⟨_, rfl, hkept (by rw [cellRead_frame])⟩
  | wordStep part => exact ⟨_, rfl, editsMemory_unlessReset (editsMemory_wordStep s part)⟩
  | beatEnd => exact ⟨_, rfl, hkept (beatEnd_mem s)⟩
  | lookupStart => exact ⟨_, rfl, hkept (lookupStart_mem s)⟩
  | lookupCompletion => exact ⟨_, rfl, hkept (lookupCompletion_mem s)⟩
  | frameStart p => exact ⟨_, rfl, hkept (frameStart_mem s p)⟩
  | frameEnd p sdi => exact ⟨_, rfl, hkept (frameEnd_mem s p sdi)⟩
  | sckPeriod p sdi => exact ⟨_, rfl, hkept (sckPeriod_mem s p sdi)⟩

end Sys2Proof.Machine
end

section
/-! CERTIFICATE. Every step keeps exchange memory in its canonical form (R70, R162, R165; log 8); O53. -/

namespace Sys2Proof.Machine

/-- A step edits exchange memory at most once. -/
theorem editsMemory_step {s t : State} (h : step s = .next t) : s.EditsMemory t := by
  unfold step at h
  split at h
  · next c rest _ =>
    obtain ⟨u, hu, hedit⟩ := editsMemory_exec { s with pending := rest } c
    exact Host.Outcome.next.inj (hu.symm.trans h) ▸ hedit
  · exact Host.Outcome.next.inj h ▸ editsMemory_unlessReset (.of_eq (timebaseTick_mem s))

/-- Settles O53: a step leaves memory, clears it or writes one whole word, and each keeps the form. -/
theorem memoryStaysCanonical : Obligations.MemoryStaysCanonical := fun _ _ hs h => (editsMemory_step h).canonical hs

end Sys2Proof.Machine
end

section
/-! SUPPORT. RESET and the soft reset, a host read in and out of RESET, the refusal capture, and the split reads and writes of
32-bit items, case by case (R163 to R167, R171, R172). -/

namespace Sys2Proof.Machine

/-! ### RESET -/

theorem hostReading_run {s : State} (h : s.resetPin = false) (f : State → State) : hostReading s f = f s := by
  simp [hostReading, h]

theorem hostReading_held {s : State} (h : s.resetPin = true) (f : State → State) : hostReading s f = returnData s 0 := by
  simp [hostReading, h]

/-- While RESET is asserted only the RESET pin's commands do anything, but for the 0 that a host read returns (R171). -/
theorem exec_held {s : State} (hpin : s.resetPin = true) {c : Instr} (hc : isResetCommand c = false) :
    exec c s = .next (if isHostRead c then returnData s 0 else s) := by
  have hread (f : State → State) : (.next (hostReading s f) : Host.Outcome State Fault Refusal) = .next (returnData s 0) :=
    congrArg Host.Outcome.next (hostReading_held hpin f)
  have hevent (f : State → State) : (.next (unlessReset s f) : Host.Outcome State Fault Refusal) = .next s :=
    congrArg Host.Outcome.next (unlessReset_held hpin f)
  cases c with
  | resetAssert | resetRelease => contradiction
  | recordWordsRead | splitLowRead | splitHighRead => exact hread _
  | registerWrite offset v => exact hevent fun s => writeItem s (itemAt offset) (alignOffset offset) v
  | unusedOffsetAccess offset a =>
    cases a with
    | read => exact hread fun s => readItem s (itemAt offset)
    | write v => exact hevent fun s => writeItem s (itemAt offset) (alignOffset offset) v
  | _ => exact hevent _

/-! ### The refusal capture -/

section
variable {k : Capture} (cause : BusCause) (offset : WindowOffset)

theorem Capture.take_empty (h : k.count = 0) : k.take cause offset = ⟨some cause, offset, 1⟩ := if_pos h

theorem Capture.take_counted (h : k.count ≠ 0) : k.take cause offset =
    ⟨k.cause, k.offset, if k.count = 255 then 255 else k.count + 1⟩ := if_neg h

end

/-- A REGISTER_WRITE is the write of the item at its offset (R174). -/
theorem exec_registerWrite {s : State} (hpin : s.resetPin = false) (offset : WindowOffset) (v : Half) :
    exec (.registerWrite offset v) s = .next (writeItem s (itemAt offset) (alignOffset offset) v) :=
  congrArg Host.Outcome.next (unlessReset_run hpin fun s => writeItem s (itemAt offset) (alignOffset offset) v)

/-! ### Split accesses -/

theorem Word.high_eq (w : Word) : w.high = w.extractLsb' 16 16 := rfl

/-- Only an aperture word is kept from the host by a clear pass (R165). -/
theorem refusedClearing_aperture (s : State) (w : BitVec 8) : refusedClearing s (.aperture w) = s.clearing :=
  Bool.and_true s.clearing

theorem refusedClearing_other {s : State} {item : Item32} (h : ∀ w, item ≠ .aperture w) :
    refusedClearing s item = false := by
  cases item with
  | aperture w => exact absurd rfl (h w)
  | _ => exact Bool.and_false s.clearing

/-- An item that a clear pass keeps from the host is no read-only one. -/
theorem item32ReadOnly_of_refusedClearing {s : State} {item : Item32} (h : refusedClearing s item = true) :
    item32ReadOnly item = false := by
  cases item with
  | slotCount | beats => simp [refusedClearing, item32IsAperture] at h
  | _ => rfl

theorem item32ReadOnly_iff {item : Item32} : item32ReadOnly item = true ↔ item = .slotCount ∨ item = .beats := by
  cases item <;> simp [item32ReadOnly]

section
variable {s : State} {item : Item32}

/-! Reads (R163, R165). -/

theorem splitLowRead_latches (h : refusedClearing s item = false) :
    splitLowRead s item = { s with window := { s.window with
      readLatch := some ⟨(item32Value s item).high, item32Tag s item⟩, readData := (item32Value s item).low } } :=
  if_neg (by simp [h])

theorem splitLowRead_refused (h : refusedClearing s item = true) :
    splitLowRead s item = returnData (s.refuse .clearing (item32Offset item .low)) 0 := if_pos h

theorem splitHighRead_returns (h : refusedClearing s item = false) :
    splitHighRead s item = returnData s (splitHighValue s item) := if_neg (by simp [h])

theorem splitHighRead_refused (h : refusedClearing s item = true) :
    splitHighRead s item = returnData (s.refuse .clearing (item32Offset item .high)) 0 := if_pos h

theorem splitHighValue_named {k : Latch} (h : s.window.readLatch = some k) (htag : k.tag = item32Tag s item) :
    splitHighValue s item = k.value := by
  simp [splitHighValue, h, htag]

theorem splitHighValue_other (h : ∀ k, s.window.readLatch = some k → k.tag ≠ item32Tag s item) :
    splitHighValue s item = (item32Value s item).high := by
  unfold splitHighValue
  split
  · next k hk => exact if_neg (h k hk)
  · rfl

/-! Writes (R164, R165). -/

variable (v : Half)

theorem splitLowWrite_readOnly (h : item32ReadOnly item = true) :
    splitLowWrite s item v = s.refuse .readOnly (item32Offset item .low) := if_pos h

theorem splitLowWrite_clearing (h : refusedClearing s item = true) :
    splitLowWrite s item v = s.refuse .clearing (item32Offset item .low) := by
  simp [splitLowWrite, item32ReadOnly_of_refusedClearing h, h]

theorem splitLowWrite_latches (hwritable : item32ReadOnly item = false) (h : refusedClearing s item = false) :
    splitLowWrite s item v = { s with window := { s.window with writeLatch := some ⟨v, item32Tag s item⟩ } } := by
  simp [splitLowWrite, hwritable, h]

end

section
variable {s : State} {w : BitVec 8} (v : Half)

theorem splitHighWrite_aperture_clearing (h : s.clearing = true) :
    splitHighWrite s (.aperture w) v = s.refuse .clearing (item32Offset (.aperture w) .high) := by
  simp [splitHighWrite, item32ReadOnly, refusedClearing_aperture, h]

theorem splitHighWrite_aperture_unlatched (hclear : s.clearing = false) (h : latchedLow s (.aperture w) = none) :
    splitHighWrite s (.aperture w) v = s.refuse .splitOrder (item32Offset (.aperture w) .high) := by
  simp [splitHighWrite, item32ReadOnly, refusedClearing_aperture, hclear, h]

theorem splitHighWrite_aperture_taken (hclear : s.clearing = false) {low : Half}
    (h : latchedLow s (.aperture w) = some low) : splitHighWrite s (.aperture w) v =
      { s.writeMem s.window.aperturePage w (v ++ low) with window := { s.window with writeLatch := none } } := by
  simp [splitHighWrite, item32ReadOnly, refusedClearing_aperture, hclear, h, commitItem, Word.ofHalves]

end

/-! ### Offsets and map entry fields in the words of the statements -/

/-- The byte offset of the high half of an aperture word (11.1). -/
theorem item32Offset_aperture_high (w : BitVec 8) :
    (item32Offset (.aperture w) .high).toNat = 0x400 + 4 * w.toNat + 2 := by
  have hw := w.isLt
  simp only [item32Offset]
  bv_omega

theorem PortId.ofFin_eq (p : PortId) : BitVec.ofFin (w := 2) p = BitVec.ofNat 2 p.val :=
  BitVec.ofFin_eq_ofNat (lt := p.isLt)

theorem TargetKind.code_eq (k : TargetKind) :
    k.code = if k = .memory then 0 else if k = .portRx then 1 else 2 := by
  cases k <;> rfl

end Sys2Proof.Machine
end

section
/-! CERTIFICATE. The split accesses and exchange memory through the aperture (R102, R162 to R166, R175); O19, O20. -/

namespace Sys2Proof.Machine

/-- Settles O19, by the clear pass and the read latch. -/
theorem splitReadsLatchTheHighHalf : Obligations.SplitReadsLatchTheHighHalf := by
  intro s item hpin
  have hlow : exec (.splitLowRead item) s = .next (splitLowRead s item) :=
    congrArg Host.Outcome.next (hostReading_run hpin _)
  have hhigh : exec (.splitHighRead item) s = .next (splitHighRead s item) :=
    congrArg Host.Outcome.next (hostReading_run hpin _)
  refine ⟨fun hopen => ?latches, fun hopen k hk htag => ?named, fun hopen hother => ?live, fun hclear => ⟨?_, ?_⟩, rfl, rfl,
    rfl, rfl, fun p => ⟨rfl, rfl⟩, fun page => ⟨rfl, fun e he => ?entry⟩, refusedClearing_other,
    fun w => ⟨rfl, refusedClearing_aperture s w, rfl⟩⟩
  case latches => rw [hlow, splitLowRead_latches hopen, Word.low_eq, Word.high_eq]
  case named => rw [hhigh, splitHighRead_returns hopen, splitHighValue_named hk htag, returnData]
  case live => rw [hhigh, splitHighRead_returns hopen, splitHighValue_other hother, returnData, Word.high_eq]
  case entry =>
    subst he
    rw [item32Value, MapEntry.toWord, TargetKind.code_eq, PortId.ofFin_eq]
  · rw [hlow, splitLowRead_refused hclear]
  · rw [hhigh, splitHighRead_refused hclear]

/-- Settles O20, by the item, the clear pass and the write latch; the committed word is one write of memory. -/
theorem splitWritesReachMemoryWholeOrNotAtAll : Obligations.SplitWritesReachMemoryWholeOrNotAtAll := by
  intro s item w v hpin hcanonical
  have hlow : exec (.splitLowWrite item v) s = .next (splitLowWrite s item v) :=
    congrArg Host.Outcome.next (unlessReset_run hpin _)
  have hcommit : exec (.apertureWordCommit w v) s = .next (splitHighWrite s (.aperture w) v) :=
    congrArg Host.Outcome.next (unlessReset_run hpin _)
  refine ⟨fun hfixed => ?readOnly, fun hclear => ?clearing, fun hslots hbeats hopen => ?latches,
    fun hclear => ?commitClearing, fun hopen hother => ?order, congrArg Host.Outcome.next (unlessReset_run hpin _),
    fun hopen low hlatch => ⟨_, hcommit, ?commits⟩, item32Offset_aperture_high w⟩
  case readOnly => rw [hlow, splitLowWrite_readOnly v (item32ReadOnly_iff.mpr hfixed)]
  case clearing => rw [hlow, splitLowWrite_clearing v hclear]
  case latches =>
    have hwritable : item32ReadOnly item = false :=
      Bool.eq_false_iff.mpr fun h => (item32ReadOnly_iff.mp h).elim hslots hbeats
    rw [hlow, splitLowWrite_latches v hwritable hopen]
  case commitClearing => rw [hcommit, splitHighWrite_aperture_clearing v hclear]
  case order => rw [hcommit, splitHighWrite_aperture_unlatched v hopen (latchedLow_other hother)]
  case commits =>
    rw [splitHighWrite_aperture_taken v hopen (latchedLow_named (item := .aperture w) hlatch)]
    exact ⟨State.readMem_writeMem_same hcanonical _ w (v ++ low),
      fun page offset hother => State.readMem_writeMem_other s (v ++ low) hother, rfl⟩

end Sys2Proof.Machine
end

section
/-! CERTIFICATE. RESET, the soft reset, the clear pass and the refusal capture (R46, R67, R68, R118, R119, R130, R139, R143,
R159, R160, R167, R169 to R172; log 2, log 9, log 13, log 18, log 22); O3, O4, O5, O6, O9. -/

namespace Sys2Proof.Machine

/-- Settles O3, command by command, and by the idle step. -/
theorem resetHoldsThePart : Obligations.ResetHoldsThePart := by
  intro s hpin
  refine ⟨fun c hc => exec_held hpin hc, by simp [State.irq, hpin], fun hempty => ?_⟩
  simp [step, hempty, unlessReset_held hpin]

/-- Settles O4: RESET_ASSERT takes the lanes and the ports of the state after a device reset, and every other field is its
value there or kept. -/
theorem resetAssertGivesDeviceResetValues : Obligations.ResetAssertGivesDeviceResetValues := by
  intro s
  exact ⟨⟨resetAssert s, rfl, reset_lane, rfl, rfl, rfl, rfl, rfl, rfl, reset_port, rfl, rfl, rfl, rfl, rfl⟩,
    fun hpin => congrArg Host.Outcome.next (if_pos hpin)⟩

/-- SOFT_RESET outside RESET is accepted (R172). -/
theorem exec_softReset {s : State} (hpin : s.resetPin = false) :
    exec .softReset s = .next (setCommandResult (softResetState s) .accepted) :=
  exec_globalCommand (c := .softReset) hpin rfl

/-- Settles O5: a soft reset takes each lane and each port to its value of the soft-reset tables, and every other field is set
or kept by name. -/
theorem softResetKeepsConfigurationAndMemory : Obligations.SoftResetKeepsConfigurationAndMemory := by
  intro s hpin
  exact ⟨_, exec_softReset hpin, State.lane_of_cleared (s := softResetState s) rfl, rfl, rfl, rfl, rfl, rfl, rfl,
    softReset_port s, rfl, rfl, rfl, hpin, rfl⟩

/-- The end of a clear pass in progress (R170). -/
theorem clearPassEnd_clearing {s : State} (h : s.clearing = true) :
    clearPassEnd s = { s with clearing := false, mem := [], ints := s.ints.setting 0x80 } := if_pos h

/-- Settles O6, by the clear pass, the run state and the beat. -/
theorem eraseAndTheClearPass : Obligations.EraseAndTheClearPass := by
  intro s hpin
  have hend : exec .clearPassEnd s = .next (clearPassEnd s) := congrArg Host.Outcome.next (unlessReset_run hpin _)
  refine ⟨(exec_globalCommand (c := .erase) hpin rfl).trans (congrArg _ ?erase), fun hopen => ?none, fun hclear =>
    ⟨_, hend, ?ends⟩⟩
  case erase =>
    unfold eraseMemory
    split
    · rfl
    · split <;> rfl
  case none => rw [hend, clearPassEnd, if_neg (by simp [hopen])]
  case ends =>
    rw [clearPassEnd_clearing hclear]
    exact ⟨fun _ _ => rfl, rfl⟩

/-- Settles O9: a refusal is one take of the capture, and each write and each reset sets it or keeps it by name. -/
theorem refusalCaptureHoldsTheFirstRefusal : Obligations.RefusalCaptureHoldsTheFirstRefusal := by
  intro s hpin
  refine ⟨fun cause offset => ⟨Capture.take_empty cause offset, Capture.take_counted cause offset⟩,
    fun v => ⟨_, exec_intStatusWrite hpin v, rfl⟩, ⟨_, exec_softReset hpin, rfl⟩, ⟨resetAssert s, rfl, rfl⟩,
    fun v offset hoffset => ?_⟩
  rw [exec_registerWrite hpin]
  simp only [List.mem_cons, List.not_mem_nil, or_false] at hoffset
  rcases hoffset with rfl | rfl | rfl <;> rfl

end Sys2Proof.Machine
end

section
/-! CERTIFICATE. Accesses by offset: a write as the command of its item's row, a write of a read-only item, and an access at an
offset that names no item (R26, R48, R149, R164, R166, R168, R174 to R176; log 15, log 16); O27, O28. -/

namespace Sys2Proof.Machine

/-! ### Writes by offset -/

/-- A write by offset is the command whose event is the write of the item there (R174; log 16). -/
theorem registerWrite_eq_command {s : State} {offset : WindowOffset} {v : Half} (i : Item) {c : Instr}
    (item : itemAt offset = i)
    (row : exec c s = .next (unlessReset s fun s => writeItem s i (alignOffset offset) v)) :
    exec (.registerWrite offset v) s = exec c s := by
  rw [row, ← item]
  rfl

/-- A read-only item refuses a write at its own offset and takes nothing of it (R166, R174). -/
theorem registerWrite_readOnly {s : State} (hpin : s.resetPin = false) {offset : WindowOffset} {v : Half} {i : Item}
    (item : itemAt offset = i) (refuses : writeItem s i (alignOffset offset) v = s.refuse .readOnly offset) :
    exec (.registerWrite offset v) s = .next { s with
      window := { s.window with capture := s.window.capture.take .readOnly offset }
      ints := s.ints.setting 0x40 } := by
  rw [exec_registerWrite hpin, item, refuses]
  rfl

/-- A write of LANE_COMMAND is the command of its code, on the lane of its lane field (R26). -/
theorem registerWrite_laneCommand {s : State} {v : Half} {code : BitVec 3} {c : Instr}
    (row : exec c s = .next (unlessReset s fun s => writeLaneCommand s (v.extractLsb' 0 4) code))
    (hcode : v.extractLsb' 8 3 = code) : exec (.registerWrite 0x060 v) s = exec c s := by
  subst hcode
  exact registerWrite_eq_command .laneCommand rfl row

/-- A write of GLOBAL_COMMAND is the command of its code (R168). -/
theorem registerWrite_globalCommand {s : State} {v : Half} {code : BitVec 4} {c : Instr}
    (row : exec c s = .next (unlessReset s fun s => writeGlobalCommand s code)) (hcode : v.extractLsb' 0 4 = code) :
    exec (.registerWrite 0x012 v) s = exec c s := by
  subst hcode
  exact registerWrite_eq_command .globalCommand rfl row

theorem itemAt_scheduleEntry (e : Fin 32) :
    itemAt (0x100 + BitVec.ofNat 11 (2 * e.val)) = .scheduleEntry .a e ∧
      itemAt (0x140 + BitVec.ofNat 11 (2 * e.val)) = .scheduleEntry .b e := by
  revert e
  decide

/-- Setting a bit that is set changes nothing. -/
theorem or_twoPow_of_set {v : Half} {n : Nat} (h : v.getLsbD n = true) : v ||| BitVec.twoPow 16 n = v := by
  refine BitVec.eq_of_getLsbD_eq fun i hi => ?_
  by_cases e : n = i
  · subst e
    simp [h]
  · simp [BitVec.getLsbD_twoPow, e]

section
variable {s : State} {p : PortId} {v : Half}

/-- A write of PORT_CONFIG, as the direction's row gives it by the enable bit: the bit the row forces is the one written
(R151, R152; log 15). -/
theorem portConfig_eq_rxRow (hpin : s.resetPin = false) : Host.Outcome.next (writePortConfig s p v) =
    if v.getLsbD 0 then exec (.portRxEnable p v) s else exec (.portRxDisable p v) s := by
  cases h : v.getLsbD 0
  · rw [if_neg (by decide), exec_portRxDisable hpin, show v &&& 0xFFFE = v from and_not_twoPow_of_clear h]
  · rw [if_pos rfl, exec_portRxEnable hpin, show v ||| 1 = v from or_twoPow_of_set h]

theorem portConfig_eq_txRow (hpin : s.resetPin = false) : Host.Outcome.next (writePortConfig s p v) =
    if v.getLsbD 1 then exec (.portTxEnable p v) s else exec (.portTxDisable p v) s := by
  cases h : v.getLsbD 1
  · rw [if_neg (by decide), exec_portTxDisable hpin, show v &&& 0xFFFD = v from and_not_twoPow_of_clear h]
  · rw [if_pos rfl, exec_portTxEnable hpin, show v ||| 2 = v from or_twoPow_of_set h]

end

/-- Settles O27: each offset names its item, whose write is the event of the item's row, an update of the port or the refusal
of a read-only item. -/
theorem registerWritesByOffset : Obligations.RegisterWritesByOffset := by
  intro s v hpin
  have refused {offset : WindowOffset} (i : Item) (item : itemAt offset = i := by rfl)
      (refuses : writeItem s i (alignOffset offset) v = s.refuse .readOnly offset := by rfl) :=
    registerWrite_readOnly hpin item refuses
  have command {offset : WindowOffset} {c : Instr} (i : Item) (item : itemAt offset = i := by rfl)
      (row : exec c s = .next (unlessReset s fun s => writeItem s i (alignOffset offset) v) := by rfl) :=
    registerWrite_eq_command i item row
  refine ⟨exec_registerWrite hpin 0x062 v, fun p => ?marks, ?readOnly, ?rows, ?laneCodes, ?globalCodes,
    fun hcode => ?globalUnknown, fun e => ?schedule, fun page => ?map, fun w => ?aperture, fun p => ?ports⟩
  case marks =>
    obtain ⟨-, marks, -⟩ := itemAt_portBlock p
    have hexec := exec_registerWrite hpin (0x0C2 + BitVec.ofNat 11 (16 * p.val)) v
    rw [marks] at hexec
    exact ⟨_, hexec, State.port_updPort_same s p _, updPort_keeps s p _⟩
  case readOnly =>
    simp only [List.forall_mem_cons, List.not_mem_nil, false_implies, implies_true, and_true]
    exact ⟨refused .vendorCode, refused .partCode, refused .revision, refused .globalStatus, refused .commandResult,
      refused .refusalCause, refused .refusalOffset, refused .refusalCount, refused .signals, refused .wheelPosition,
      refused .wheelRotation, refused (.split .slotCount .low), refused (.split .slotCount .high), refused .overrunCount,
      refused .laneResult, refused .laneFaultSummary, refused .laneHaltSummary, refused .laneState, refused .laneParts,
      refused .laneProgress, refused .resolvedSource, refused .resolvedDestination, refused .remaining,
      refused .sourcePosition, refused .destinationPosition, refused .repeatAddress, refused .repeatRemaining,
      refused .waitMask, refused .waitTimeout, refused .partTag, refused .faultInfo, refused .faultRecordAddress,
      refused .faultOffending, refused .missedSlots, refused (.split .beats .low), refused (.split .beats .high),
      refused .cursorPagesA, refused .cursorPagesB, refused .recordWords, refused .queueHeadId, refused .queueHeadTag,
      refused .queueHeadAddress, refused .queueHeadStamp, refused .queueLevel, refused .queueNextSequence⟩
  case rows =>
    simp only [List.forall_mem_cons, List.not_mem_nil, false_implies, implies_true, and_true]
    exact ⟨command .aperturePage, command .intStatus, command .intEnable, command .signalSet, command .signalClear,
      command .tableSelect, command .slotPeriod, command .laneSelect, command .recordPointer, command .laneConfig,
      command .queueThreshold, command .queuePop⟩
  case laneCodes =>
    simp only [List.forall_mem_cons, List.not_mem_nil, false_implies, implies_true, and_true]
    exact ⟨registerWrite_laneCommand rfl, registerWrite_laneCommand rfl, registerWrite_laneCommand rfl,
      registerWrite_laneCommand rfl, registerWrite_laneCommand rfl, registerWrite_laneCommand rfl,
      registerWrite_laneCommand rfl, registerWrite_laneCommand rfl⟩
  case globalCodes =>
    simp only [List.forall_mem_cons, List.not_mem_nil, false_implies, implies_true, and_true]
    exact ⟨registerWrite_globalCommand rfl, registerWrite_globalCommand rfl, registerWrite_globalCommand rfl,
      registerWrite_globalCommand rfl, registerWrite_globalCommand rfl⟩
  case globalUnknown => exact registerWrite_globalCommand rfl rfl
  case schedule =>
    obtain ⟨entryA, entryB⟩ := itemAt_scheduleEntry e
    exact ⟨command _ entryA, command _ entryB⟩
  case map =>
    obtain ⟨lowHalf, highHalf⟩ := itemAt_mapEntry page
    exact ⟨command _ lowHalf, command _ highHalf⟩
  case aperture =>
    obtain ⟨lowHalf, highHalf⟩ := itemAt_aperture w
    exact ⟨command _ lowHalf, command _ highHalf⟩
  case ports =>
    obtain ⟨config, -, lowHalf, highHalf, status, overruns, underruns, frameErrors⟩ := itemAt_portBlock p
    have hconfig := exec_registerWrite hpin (0x0C0 + BitVec.ofNat 11 (16 * p.val)) v
    rw [config] at hconfig
    exact ⟨hconfig.trans (portConfig_eq_rxRow hpin), hconfig.trans (portConfig_eq_txRow hpin),
      command _ lowHalf, command _ highHalf, command _ status, command _ overruns, command _ underruns,
      command _ frameErrors⟩

/-! ### Offsets that name no item -/

/-- An offset that stands in no row of a list of items names none of them (R176). -/
theorem lookupItem_unlisted {n : Nat} : ∀ {items : List (Nat × Item)}, (∀ row ∈ items, row.1 ≠ n) →
    lookupItem items n = .unused
  | [], _ => rfl
  | (o, i) :: rest, h => by
    obtain ⟨hhead, hrest⟩ := List.forall_mem_cons.mp h
    rw [lookupItem, if_neg hhead, lookupItem_unlisted hrest]

/-- The gaps of 11.1 between the items below the port blocks. -/
abbrev LowGap (n : Nat) : Prop :=
  (0x006 ≤ n ∧ n ≤ 0x00E) ∨ (0x018 ≤ n ∧ n ≤ 0x01E) ∨ n = 0x024 ∨ n = 0x026 ∨ n = 0x02E ∨ (0x036 ≤ n ∧ n ≤ 0x03E) ∨
    (0x04E ≤ n ∧ n ≤ 0x05E) ∨ n = 0x06C ∨ n = 0x06E ∨ (0x0B0 ≤ n ∧ n ≤ 0x0BE)

/-- No item below the port blocks lies in a gap. -/
theorem lowItems_outside_gaps : ∀ row ∈ lowItemsA ++ lowItemsB ++ lowItemsC, ¬ LowGap row.1 := by
  decide

theorem itemAt_lowGap {offset : WindowOffset} (h : LowGap (alignOffset offset).toNat) : itemAt offset = .unused := by
  have below : (alignOffset offset).toNat < 0x0C0 := by omega
  have unlisted : ∀ row ∈ lowItemsA ++ lowItemsB ++ lowItemsC, row.1 ≠ (alignOffset offset).toNat :=
    fun row hrow e => lowItems_outside_gaps row hrow (e ▸ h)
  simp only [itemAt]
  rw [if_neg (by omega), if_neg (by omega), if_neg (by omega), if_neg (by omega), if_neg (by omega), if_neg (by omega),
    lookupItem_unlisted unlisted]

/-- The block between the schedule tables and the page map names no item (11.1). -/
theorem itemAt_gapBeforeMap {offset : WindowOffset} (low : 0x180 ≤ (alignOffset offset).toNat)
    (high : (alignOffset offset).toNat ≤ 0x1FE) : itemAt offset = .unused := by
  simp only [itemAt]
  rw [if_neg (by omega), if_neg (by omega), if_pos low]

/-- Settles O28: such an offset lies in a gap of the address map, so its item is none, which reads 0 and takes no write. -/
theorem unusedOffsetsAreNeitherPerformedNorRefused : Obligations.UnusedOffsetsAreNeitherPerformedNorRefused := by
  intro s offset v hpin heven hgap
  have aligned : (alignOffset offset).toNat = offset.toNat := by
    rw [toNat_alignOffset]
    omega
  have unused : itemAt offset = .unused := by
    rw [← aligned] at hgap
    by_cases low : LowGap (alignOffset offset).toNat
    · exact itemAt_lowGap low
    · exact itemAt_gapBeforeMap (by omega) (by omega)
  have write : exec (.unusedOffsetAccess offset (.write v)) s =
      .next (writeItem s (itemAt offset) (alignOffset offset) v) := exec_registerWrite hpin offset v
  exact ⟨read_of_item hpin unused, by rw [write, unused]; rfl⟩

end Sys2Proof.Machine
end
